-- ==== Sys2Proof/Word.lean ====
section
/-! DEFINITION. The widths of the machine's words (00_scope.md R8, R10, R71). -/

namespace Sys2Proof

/-- A memory cell or a general register: 8 bits. -/
abbrev Byte := BitVec 8

/-- An instruction word, `pc`, `I` or a stack entry: 16 bits. -/
abbrev Word := BitVec 16

/-- A register number (the x or y field) or the 4-bit immediate n. -/
abbrev Nibble := BitVec 4

/-- The 12-bit address immediate nnn. -/
abbrev Addr12 := BitVec 12

/-- `b2n` of 00_scope.md R11, as the byte an instruction writes into VF. -/
def b2n (b : Bool) : Byte := if b then 1#8 else 0#8

end Sys2Proof
end

