-- ==== Sys2Proof/Config.lean ====
section
/-! DEFINITION. The fixed parameters of 00_scope.md R8, the open ones of R9, and the free value of CXNN. -/

namespace Sys2Proof

/-- MEM_SIZE: the number of bytes of memory (00_scope.md R8). -/
abbrev memSize : Nat := 4096

/-- ROM_BASE: where `load_rom` copies a program (00_scope.md R8). -/
abbrev romBase : Nat := 0x200

/-- ROM_MAX: the longest program `load_rom` takes, 4096 - 0x200 (00_scope.md R8). -/
abbrev romMax : Nat := memSize - romBase

/-- FONT_BASE: where `load_fonts` writes the glyph table (00_scope.md R8). -/
abbrev fontBase : Nat := 0x000

/-- FONT_GLYPH_BYTES: the bytes of one glyph (00_scope.md R8). -/
abbrev glyphBytes : Nat := 5

/-- What the flag-writing ALU instructions compute when x or y is 15 (42_alu.md R132, D6; log 7). -/
inductive VfAliasOrder where
  /-- The default: flag first, then a result that reads the registers as they then are. -/
  | asListed
  /-- Operands read first; flag written, then the result. -/
  | snapshotResultLast
  /-- Operands read first; result written, then the flag. -/
  | snapshotFlagLast
deriving DecidableEq, Repr

/-- The open parameters of the core that the source leaves to the implementation (00_scope.md R9). -/
structure Config where
  /-- FONT_TABLE, the 80 bytes `load_fonts` writes (D5; log 6). -/
  fontTable : Vector Byte 80
  /-- VF_ALIAS_ORDER (D6; log 7). -/
  vfAliasOrder : VfAliasOrder
deriving DecidableEq, Repr

namespace Config

/-- Glyphs 0 to 7 of the default FONT_TABLE. PRESUMED: 93_implementation_defined.md G1 marks the bytes
"from general knowledge, not in source" (log 6). -/
def glyphs0to7 : List Byte :=
  [0xF0, 0x90, 0x90, 0x90, 0xF0] ++ [0x20, 0x60, 0x20, 0x20, 0x70] ++
  [0xF0, 0x10, 0xF0, 0x80, 0xF0] ++ [0xF0, 0x10, 0xF0, 0x10, 0xF0] ++
  [0x90, 0x90, 0xF0, 0x10, 0x10] ++ [0xF0, 0x80, 0xF0, 0x10, 0xF0] ++
  [0xF0, 0x80, 0xF0, 0x90, 0xF0] ++ [0xF0, 0x10, 0x20, 0x40, 0x40]

/-- Glyphs 8 to F of the default FONT_TABLE. PRESUMED, as `glyphs0to7` (log 6). -/
def glyphs8toF : List Byte :=
  [0xF0, 0x90, 0xF0, 0x90, 0xF0] ++ [0xF0, 0x90, 0xF0, 0x10, 0xF0] ++
  [0xF0, 0x90, 0xF0, 0x90, 0x90] ++ [0xE0, 0x90, 0xE0, 0x90, 0xE0] ++
  [0xF0, 0x80, 0x80, 0x80, 0xF0] ++ [0xE0, 0x90, 0x90, 0x90, 0xE0] ++
  [0xF0, 0x80, 0xF0, 0x80, 0xF0] ++ [0xF0, 0x80, 0xF0, 0x80, 0x80]

/-- The spec's defaults: the font of 93_implementation_defined.md G1 and AS_LISTED (42_alu.md R132).
DESIGN CHOICE and PRESUMED (log 6, log 7). A statement about every state holds for every `Config`. -/
def default : Config where
  fontTable := ⟨(glyphs0to7 ++ glyphs8toF).toArray, by decide⟩
  vfAliasOrder := .asListed

/-- The byte of the k-th `RandomByte()` draw: a free value, under no law (00_scope.md R14, D7; log 8). -/
opaque randomByte : Nat → Byte

end Config

end Sys2Proof
end

