-- ==== Sys2Proof/Syntax.lean ====
section
/-! DEFINITION. The instructions: one constructor for each row of the opcode map (30_encoding.md R75). -/

namespace Sys2Proof

/-- An instruction with its operand fields as 30_encoding.md R71 reads them: `x` and `y` register numbers,
`n`, `nn` and `nnn` immediates. -/
inductive Instr where
  /-- 00E0, `CLS` (R170). -/
  | cls
  /-- 00EE, `RET` (R100). -/
  | ret
  /-- 00NN, `SYS nn`: every word 0x0000-0x00FF but 0x00E0 and 0x00EE (R101). -/
  | sys (nn : Byte)
  /-- 1NNN, `JP nnn` (R102). -/
  | jp (nnn : Addr12)
  /-- 2NNN, `CALL nnn` (R103). -/
  | call (nnn : Addr12)
  /-- 3XNN, `SE Vx, nn` (R104). -/
  | seImm (x : Nibble) (nn : Byte)
  /-- 4XNN, `SNE Vx, nn` (R105). -/
  | sneImm (x : Nibble) (nn : Byte)
  /-- 5XY0, `SE Vx, Vy` (R106). -/
  | seReg (x y : Nibble)
  /-- 9XY0, `SNE Vx, Vy` (R107). -/
  | sneReg (x y : Nibble)
  /-- 6XNN, `LD Vx, nn` (R120). -/
  | ldImm (x : Nibble) (nn : Byte)
  /-- 7XNN, `ADD Vx, nn` (R121). -/
  | addImm (x : Nibble) (nn : Byte)
  /-- 8XY0, `LD Vx, Vy` (R122). -/
  | ldReg (x y : Nibble)
  /-- 8XY1, `OR Vx, Vy` (R123). -/
  | orReg (x y : Nibble)
  /-- 8XY2, `AND Vx, Vy` (R124). -/
  | andReg (x y : Nibble)
  /-- 8XY3, `XOR Vx, Vy` (R125). -/
  | xorReg (x y : Nibble)
  /-- 8XY4, `ADD Vx, Vy` (R126). -/
  | addReg (x y : Nibble)
  /-- 8XY5, `SUB Vx, Vy` (R127). -/
  | subReg (x y : Nibble)
  /-- 8XY7, `SUBN Vx, Vy` (R128). -/
  | subnReg (x y : Nibble)
  /-- 8XY6, `SHR Vx` (R129). The y field has bits in the word and no effect (R74; log 33). -/
  | shr (x y : Nibble)
  /-- 8XYE, `SHL Vx` (R130). The y field has bits in the word and no effect (R74; log 33). -/
  | shl (x y : Nibble)
  /-- ANNN, `LD I, nnn` (R150). -/
  | ldI (nnn : Addr12)
  /-- BNNN, `JP V0, nnn` (R108). -/
  | jpV0 (nnn : Addr12)
  /-- CXNN, `RND Vx, nn` (R131). -/
  | rnd (x : Nibble) (nn : Byte)
  /-- DXYN, `DRW Vx, Vy, n` (R171). -/
  | drw (x y n : Nibble)
  /-- EX9E, `SKP Vx` (R180). -/
  | skp (x : Nibble)
  /-- EXA1, `SKNP Vx` (R181). -/
  | sknp (x : Nibble)
  /-- FX07, `LD Vx, DT` (R182). -/
  | ldVxDt (x : Nibble)
  /-- FX0A, `LD Vx, K` (R183). -/
  | ldVxKey (x : Nibble)
  /-- FX15, `LD DT, Vx` (R184). -/
  | ldDtVx (x : Nibble)
  /-- FX18, `LD ST, Vx` (R185). -/
  | ldStVx (x : Nibble)
  /-- FX1E, `ADD I, Vx` (R151). -/
  | addI (x : Nibble)
  /-- FX29, `LD F, Vx` (R152). -/
  | ldF (x : Nibble)
  /-- FX33, `LD B, Vx` (R153). -/
  | ldB (x : Nibble)
  /-- FX55, `LD [I], Vx` (R155). -/
  | ldMemVx (x : Nibble)
  /-- FX65, `LD Vx, [I]` (R156). -/
  | ldVxMem (x : Nibble)
  /-- The catch-all row "else": a word no earlier row matches (R77, R95; log 34). -/
  | unimplemented (op : Word)
deriving DecidableEq, Repr

end Sys2Proof
end

