-- ==== Sys2Proof/WellFormed.lean ====
section
/-! DEFINITION. Which instruction terms stand for a word: the two conditions that the opcode map's priority
order puts on operands (30_encoding.md R75, R76, R77). -/

namespace Sys2Proof

/-- A 00NN word other than 00E0 and 00EE, which the earlier rows take (30_encoding.md R76). -/
def isSysByte (nn : Byte) : Bool := nn != 0xE0#8 && nn != 0xEE#8

/-- Is `op` one of the words 30_encoding.md R77 lists, which no row 1-35 matches? The classes are written as the
rule's table gives them, by ranges of the number. -/
def isUnimplementedWord (op : Word) : Bool :=
  let n := op.toNat
  let n1 := n / 0x1000
  let n4 := n % 0x10
  let kk := n % 0x100
  (0x0100 ≤ n && n ≤ 0x0FFF)
  || (n1 == 5 && n4 != 0)
  || (n1 == 8 && [0x8, 0x9, 0xA, 0xB, 0xC, 0xD, 0xF].contains n4)
  || (n1 == 9 && n4 != 0)
  || (n1 == 0xE && !([0x9E, 0xA1].contains kk))
  || (n1 == 0xF && !([0x07, 0x0A, 0x15, 0x18, 0x1E, 0x29, 0x33, 0x55, 0x65].contains kk))

/-- Well-formed: the decoder can answer this term. Register numbers and immediates carry their widths in their
types, so only the two catch-all rows need a check. -/
def Instr.wf : Instr → Bool
  | .cls => true
  | .ret => true
  | .sys nn => isSysByte nn
  | .jp _ => true
  | .call _ => true
  | .seImm _ _ => true
  | .sneImm _ _ => true
  | .seReg _ _ => true
  | .sneReg _ _ => true
  | .ldImm _ _ => true
  | .addImm _ _ => true
  | .ldReg _ _ => true
  | .orReg _ _ => true
  | .andReg _ _ => true
  | .xorReg _ _ => true
  | .addReg _ _ => true
  | .subReg _ _ => true
  | .subnReg _ _ => true
  | .shr _ _ => true
  | .shl _ _ => true
  | .ldI _ => true
  | .jpV0 _ => true
  | .rnd _ _ => true
  | .drw _ _ _ => true
  | .skp _ => true
  | .sknp _ => true
  | .ldVxDt _ => true
  | .ldVxKey _ => true
  | .ldDtVx _ => true
  | .ldStVx _ => true
  | .addI _ => true
  | .ldF _ => true
  | .ldB _ => true
  | .ldMemVx _ => true
  | .ldVxMem _ => true
  | .unimplemented op => isUnimplementedWord op

end Sys2Proof
end

