-- ==== Sys2Proof/Decode.lean ====
section
/-! DEFINITION. The decoder (30_encoding.md R70-R79, 40_cycle.md R93), total on every word, the encoder written from
the same encodings, and the opcode table of R75 as rows of mask and match. -/

namespace Sys2Proof

/-! The fields of a word (30_encoding.md R71). -/

/-- n1 = op[15:12], the major opcode. -/
def nibble1 (w : Word) : Nibble := w.extractLsb' 12 4

/-- n2 = op[11:8]. -/
def nibble2 (w : Word) : Nibble := w.extractLsb' 8 4

/-- n3 = op[7:4]. -/
def nibble3 (w : Word) : Nibble := w.extractLsb' 4 4

/-- n4 = op[3:0]. -/
def nibble4 (w : Word) : Nibble := w.extractLsb' 0 4

/-- x = op[11:8], the first register number. -/
def fieldX (w : Word) : Nibble := w.extractLsb' 8 4

/-- y = op[7:4], the second register number. -/
def fieldY (w : Word) : Nibble := w.extractLsb' 4 4

/-- n = op[3:0], the row count of DXYN. -/
def fieldN (w : Word) : Nibble := w.extractLsb' 0 4

/-- nn = op[7:0], the 8-bit immediate. -/
def fieldNN (w : Word) : Byte := w.extractLsb' 0 8

/-- nnn = op[11:0], the 12-bit address. -/
def fieldNNN (w : Word) : Addr12 := w.extractLsb' 0 12

/-- Does the word have these nibbles? `none` is the wildcard of the pattern column of R75. -/
def nibblesMatch (w : Word) (p1 p2 p3 p4 : Option Nibble) : Bool :=
  p1.all (· == nibble1 w) && p2.all (· == nibble2 w) && p3.all (· == nibble3 w) && p4.all (· == nibble4 w)

/-- The instruction a word stands for: the first row of 30_encoding.md R75 whose nibble pattern matches, in the
table's priority order, and the catch-all row for every other word (40_cycle.md R93). -/
def decode (w : Word) : Instr :=
  if nibblesMatch w (some 0x0) (some 0x0) (some 0xE) (some 0x0) then .cls else
  if nibblesMatch w (some 0x0) (some 0x0) (some 0xE) (some 0xE) then .ret else
  if nibblesMatch w (some 0x0) (some 0x0) none none then .sys (fieldNN w) else
  if nibblesMatch w (some 0x1) none none none then .jp (fieldNNN w) else
  if nibblesMatch w (some 0x2) none none none then .call (fieldNNN w) else
  if nibblesMatch w (some 0x3) none none none then .seImm (fieldX w) (fieldNN w) else
  if nibblesMatch w (some 0x4) none none none then .sneImm (fieldX w) (fieldNN w) else
  if nibblesMatch w (some 0x5) none none (some 0x0) then .seReg (fieldX w) (fieldY w) else
  if nibblesMatch w (some 0x9) none none (some 0x0) then .sneReg (fieldX w) (fieldY w) else
  if nibblesMatch w (some 0x6) none none none then .ldImm (fieldX w) (fieldNN w) else
  if nibblesMatch w (some 0x7) none none none then .addImm (fieldX w) (fieldNN w) else
  if nibblesMatch w (some 0x8) none none (some 0x0) then .ldReg (fieldX w) (fieldY w) else
  if nibblesMatch w (some 0x8) none none (some 0x1) then .orReg (fieldX w) (fieldY w) else
  if nibblesMatch w (some 0x8) none none (some 0x2) then .andReg (fieldX w) (fieldY w) else
  if nibblesMatch w (some 0x8) none none (some 0x3) then .xorReg (fieldX w) (fieldY w) else
  if nibblesMatch w (some 0x8) none none (some 0x4) then .addReg (fieldX w) (fieldY w) else
  if nibblesMatch w (some 0x8) none none (some 0x5) then .subReg (fieldX w) (fieldY w) else
  if nibblesMatch w (some 0x8) none none (some 0x7) then .subnReg (fieldX w) (fieldY w) else
  if nibblesMatch w (some 0x8) none none (some 0x6) then .shr (fieldX w) (fieldY w) else
  if nibblesMatch w (some 0x8) none none (some 0xE) then .shl (fieldX w) (fieldY w) else
  if nibblesMatch w (some 0xA) none none none then .ldI (fieldNNN w) else
  if nibblesMatch w (some 0xB) none none none then .jpV0 (fieldNNN w) else
  if nibblesMatch w (some 0xC) none none none then .rnd (fieldX w) (fieldNN w) else
  if nibblesMatch w (some 0xD) none none none then .drw (fieldX w) (fieldY w) (fieldN w) else
  if nibblesMatch w (some 0xE) none (some 0x9) (some 0xE) then .skp (fieldX w) else
  if nibblesMatch w (some 0xE) none (some 0xA) (some 0x1) then .sknp (fieldX w) else
  if nibblesMatch w (some 0xF) none (some 0x0) (some 0x7) then .ldVxDt (fieldX w) else
  if nibblesMatch w (some 0xF) none (some 0x0) (some 0xA) then .ldVxKey (fieldX w) else
  if nibblesMatch w (some 0xF) none (some 0x1) (some 0x5) then .ldDtVx (fieldX w) else
  if nibblesMatch w (some 0xF) none (some 0x1) (some 0x8) then .ldStVx (fieldX w) else
  if nibblesMatch w (some 0xF) none (some 0x1) (some 0xE) then .addI (fieldX w) else
  if nibblesMatch w (some 0xF) none (some 0x2) (some 0x9) then .ldF (fieldX w) else
  if nibblesMatch w (some 0xF) none (some 0x3) (some 0x3) then .ldB (fieldX w) else
  if nibblesMatch w (some 0xF) none (some 0x5) (some 0x5) then .ldMemVx (fieldX w) else
  if nibblesMatch w (some 0xF) none (some 0x6) (some 0x5) then .ldVxMem (fieldX w) else
  .unimplemented w

/-- Why bytes are not an instruction: the only reason, since every word decodes. -/
inductive DecodeReject where
  /-- Fewer than the two bytes of a word (30_encoding.md R70). -/
  | truncated
deriving DecidableEq, Repr

/-- The word of two bytes, the first holding n1 and n2 (big-endian, 20_memory.md R51). -/
def wordOfBytes (hi lo : Byte) : Word := hi ++ lo

/-- Decode the instruction at the front of a list of bytes, and give the bytes after it. -/
def decodeBytes : List Byte → Except DecodeReject (Instr × List Byte)
  | hi :: lo :: rest => .ok (decode (wordOfBytes hi lo), rest)
  | [_] => .error .truncated
  | [] => .error .truncated

/-- The word of an instruction, from the formats of 30_encoding.md R72 and the patterns of R75. -/
def encode : Instr → Word
  | .cls => 0x00E0#16
  | .ret => 0x00EE#16
  | .sys nn => 0x00#8 ++ nn
  | .jp nnn => 0x1#4 ++ nnn
  | .call nnn => 0x2#4 ++ nnn
  | .seImm x nn => 0x3#4 ++ x ++ nn
  | .sneImm x nn => 0x4#4 ++ x ++ nn
  | .seReg x y => 0x5#4 ++ x ++ y ++ 0x0#4
  | .sneReg x y => 0x9#4 ++ x ++ y ++ 0x0#4
  | .ldImm x nn => 0x6#4 ++ x ++ nn
  | .addImm x nn => 0x7#4 ++ x ++ nn
  | .ldReg x y => 0x8#4 ++ x ++ y ++ 0x0#4
  | .orReg x y => 0x8#4 ++ x ++ y ++ 0x1#4
  | .andReg x y => 0x8#4 ++ x ++ y ++ 0x2#4
  | .xorReg x y => 0x8#4 ++ x ++ y ++ 0x3#4
  | .addReg x y => 0x8#4 ++ x ++ y ++ 0x4#4
  | .subReg x y => 0x8#4 ++ x ++ y ++ 0x5#4
  | .subnReg x y => 0x8#4 ++ x ++ y ++ 0x7#4
  | .shr x y => 0x8#4 ++ x ++ y ++ 0x6#4
  | .shl x y => 0x8#4 ++ x ++ y ++ 0xE#4
  | .ldI nnn => 0xA#4 ++ nnn
  | .jpV0 nnn => 0xB#4 ++ nnn
  | .rnd x nn => 0xC#4 ++ x ++ nn
  | .drw x y n => 0xD#4 ++ x ++ y ++ n
  | .skp x => 0xE#4 ++ x ++ 0x9E#8
  | .sknp x => 0xE#4 ++ x ++ 0xA1#8
  | .ldVxDt x => 0xF#4 ++ x ++ 0x07#8
  | .ldVxKey x => 0xF#4 ++ x ++ 0x0A#8
  | .ldDtVx x => 0xF#4 ++ x ++ 0x15#8
  | .ldStVx x => 0xF#4 ++ x ++ 0x18#8
  | .addI x => 0xF#4 ++ x ++ 0x1E#8
  | .ldF x => 0xF#4 ++ x ++ 0x29#8
  | .ldB x => 0xF#4 ++ x ++ 0x33#8
  | .ldMemVx x => 0xF#4 ++ x ++ 0x55#8
  | .ldVxMem x => 0xF#4 ++ x ++ 0x65#8
  | .unimplemented op => op

/-- The first byte of a word in memory: the most significant one (20_memory.md R51). -/
def highByte (w : Word) : Byte := w.extractLsb' 8 8

/-- The second byte of a word in memory. -/
def lowByte (w : Word) : Byte := w.extractLsb' 0 8

/-- The bytes of an instruction, in memory order. -/
def encodeBytes (i : Instr) : List Byte := [highByte (encode i), lowByte (encode i)]

/-- One row of the opcode map: the match and mask column of 30_encoding.md R75, and the operand fields of
spec/opcode_table.json. -/
structure OpcodeRow where
  /-- The row's mnemonic in spec/opcode_table.json. -/
  mnemonic : String
  /-- The bits of the word the row fixes. -/
  mask : Word
  /-- Their values. -/
  pattern : Word
  /-- The instruction, its operands read from the row's fields. -/
  build : Word → Instr

/-- `op & mask = match` (30_encoding.md R75). -/
def OpcodeRow.selects (r : OpcodeRow) (w : Word) : Bool := w &&& r.mask == r.pattern

/-- The rows of priority 1 to 20. -/
def opcodeRows1 : List OpcodeRow :=
  [⟨"00E0", 0xFFFF, 0x00E0, fun _ => .cls⟩,
   ⟨"00EE", 0xFFFF, 0x00EE, fun _ => .ret⟩,
   ⟨"00NN", 0xFF00, 0x0000, fun w => .sys (w.extractLsb' 0 8)⟩,
   ⟨"1NNN", 0xF000, 0x1000, fun w => .jp (w.extractLsb' 0 12)⟩,
   ⟨"2NNN", 0xF000, 0x2000, fun w => .call (w.extractLsb' 0 12)⟩,
   ⟨"3XNN", 0xF000, 0x3000, fun w => .seImm (w.extractLsb' 8 4) (w.extractLsb' 0 8)⟩,
   ⟨"4XNN", 0xF000, 0x4000, fun w => .sneImm (w.extractLsb' 8 4) (w.extractLsb' 0 8)⟩] ++
  [⟨"5XY0", 0xF00F, 0x5000, fun w => .seReg (w.extractLsb' 8 4) (w.extractLsb' 4 4)⟩,
   ⟨"9XY0", 0xF00F, 0x9000, fun w => .sneReg (w.extractLsb' 8 4) (w.extractLsb' 4 4)⟩,
   ⟨"6XNN", 0xF000, 0x6000, fun w => .ldImm (w.extractLsb' 8 4) (w.extractLsb' 0 8)⟩,
   ⟨"7XNN", 0xF000, 0x7000, fun w => .addImm (w.extractLsb' 8 4) (w.extractLsb' 0 8)⟩,
   ⟨"8XY0", 0xF00F, 0x8000, fun w => .ldReg (w.extractLsb' 8 4) (w.extractLsb' 4 4)⟩,
   ⟨"8XY1", 0xF00F, 0x8001, fun w => .orReg (w.extractLsb' 8 4) (w.extractLsb' 4 4)⟩,
   ⟨"8XY2", 0xF00F, 0x8002, fun w => .andReg (w.extractLsb' 8 4) (w.extractLsb' 4 4)⟩] ++
  [⟨"8XY3", 0xF00F, 0x8003, fun w => .xorReg (w.extractLsb' 8 4) (w.extractLsb' 4 4)⟩,
   ⟨"8XY4", 0xF00F, 0x8004, fun w => .addReg (w.extractLsb' 8 4) (w.extractLsb' 4 4)⟩,
   ⟨"8XY5", 0xF00F, 0x8005, fun w => .subReg (w.extractLsb' 8 4) (w.extractLsb' 4 4)⟩,
   ⟨"8XY7", 0xF00F, 0x8007, fun w => .subnReg (w.extractLsb' 8 4) (w.extractLsb' 4 4)⟩,
   ⟨"8XY6", 0xF00F, 0x8006, fun w => .shr (w.extractLsb' 8 4) (w.extractLsb' 4 4)⟩,
   ⟨"8XYE", 0xF00F, 0x800E, fun w => .shl (w.extractLsb' 8 4) (w.extractLsb' 4 4)⟩]

/-- The rows of priority 21 to 36; the last matches every word. -/
def opcodeRows2 : List OpcodeRow :=
  [⟨"ANNN", 0xF000, 0xA000, fun w => .ldI (w.extractLsb' 0 12)⟩,
   ⟨"BNNN", 0xF000, 0xB000, fun w => .jpV0 (w.extractLsb' 0 12)⟩,
   ⟨"CXNN", 0xF000, 0xC000, fun w => .rnd (w.extractLsb' 8 4) (w.extractLsb' 0 8)⟩,
   ⟨"DXYN", 0xF000, 0xD000, fun w => .drw (w.extractLsb' 8 4) (w.extractLsb' 4 4) (w.extractLsb' 0 4)⟩,
   ⟨"EX9E", 0xF0FF, 0xE09E, fun w => .skp (w.extractLsb' 8 4)⟩,
   ⟨"EXA1", 0xF0FF, 0xE0A1, fun w => .sknp (w.extractLsb' 8 4)⟩,
   ⟨"FX07", 0xF0FF, 0xF007, fun w => .ldVxDt (w.extractLsb' 8 4)⟩] ++
  [⟨"FX0A", 0xF0FF, 0xF00A, fun w => .ldVxKey (w.extractLsb' 8 4)⟩,
   ⟨"FX15", 0xF0FF, 0xF015, fun w => .ldDtVx (w.extractLsb' 8 4)⟩,
   ⟨"FX18", 0xF0FF, 0xF018, fun w => .ldStVx (w.extractLsb' 8 4)⟩,
   ⟨"FX1E", 0xF0FF, 0xF01E, fun w => .addI (w.extractLsb' 8 4)⟩,
   ⟨"FX29", 0xF0FF, 0xF029, fun w => .ldF (w.extractLsb' 8 4)⟩,
   ⟨"FX33", 0xF0FF, 0xF033, fun w => .ldB (w.extractLsb' 8 4)⟩,
   ⟨"FX55", 0xF0FF, 0xF055, fun w => .ldMemVx (w.extractLsb' 8 4)⟩] ++
  [⟨"FX65", 0xF0FF, 0xF065, fun w => .ldVxMem (w.extractLsb' 8 4)⟩] ++
  [⟨"UNIMPLEMENTED", 0x0000, 0x0000, fun w => .unimplemented w⟩]

/-- The opcode map of 30_encoding.md R75, in priority order. -/
def opcodeTable : List OpcodeRow := opcodeRows1 ++ opcodeRows2

/-- Decode by the table: the first row whose masked bits match (30_encoding.md R75, last sentence). -/
def decodeByTable (w : Word) : Instr :=
  match opcodeTable.find? (·.selects w) with
  | some row => row.build w
  | none => .unimplemented w

/-- The instruction the decoder reads from a word numbered as spec/opcode_table.json numbers it: the word's bytes are
laid out big-endian and given to `decodeBytes`. No instruction is longer than 16 bits. -/
def decodeTableWord (nbits w : Nat) : Option Instr :=
  if nbits ≤ 16 then
    let op := BitVec.ofNat 16 (w % 2 ^ nbits)
    match decodeBytes [highByte op, lowByte op] with
    | .ok (i, _) => some i
    | .error _ => none
  else none

end Sys2Proof
end

