-- ==== Sys2Proof/Machine/State.lean ====
section
/-! DEFINITION. The machine's state (10_state.md R20), its fault records and refusals, and the state at creation (R40). -/

namespace Sys2Proof.Machine

/-- Memory as (address, byte) pairs: addresses strictly rising, no pair with the byte an unlisted address reads as. -/
abbrev Memory := List Host.Cell

/-- What an address no pair lists reads as: the byte of every cell at creation (10_state.md R40; DESIGN CHOICE of the
spec, D2; log 1). -/
def Memory.unlisted : Byte := 0x00#8

/-- The canonical form of a memory. -/
abbrev Memory.wf (m : Memory) : Prop :=
  (m.map Prod.fst).Pairwise (· < ·) ∧ ∀ c ∈ m, c.2 ≠ Memory.unlisted

/-- Every listed address exists (20_memory.md R50). -/
abbrev Memory.inSpace (m : Memory) : Prop := ∀ c ∈ m, c.1 < memSize

/-- The display buffer: 32 rows of 64 pixels, row-major; `true` is a set pixel (10_state.md R32). -/
abbrev Display := Vector (Vector Bool 64) 32

/-- A fault and its record `{kind, code, pc, op, addr}` (60_exceptions.md R200, R207): the kind is the constructor, and
each carries the parts of the record that its row of R200 does not fix. All six are safe: the source calls them fatal,
and the core takes no step after one (R210). -/
inductive Fault where
  /-- Code 1, raised by 2NNN at `sp = 16` (R201). Safe: the spec's own fault. -/
  | stackOverflow (pc op : Word)
  /-- Code 2, raised by 00EE at `sp = 0` (R202). Safe: the spec's own fault. -/
  | stackUnderflow (pc op : Word)
  /-- Code 3, raised by the fetch of a tick with `pc + 1 ≥ 4096` (R203). Safe: the spec's own fault (D16; log 21). -/
  | fetchOutOfRange (pc : Word) (addr : Nat)
  /-- Code 4, raised by DXYN, FX33, FX55, FX65 past the end of memory (R204). Safe: the spec's own fault. -/
  | memoryOutOfRange (pc op : Word) (addr : Nat)
  /-- Code 5, raised by `load_rom` on more than 3584 bytes (R205). Safe: the spec's own fault. -/
  | romTooLarge
  /-- Code 6, raised by EX9E and EXA1 on a key index of 16 or more (R206). Safe: the software may not stop (D14; log 19). -/
  | keyIndexOutOfRange (pc op : Word)
deriving DecidableEq, Repr

/-- Why an operation is refused: the host broke a duty (00_scope.md R15; D20; log 25). No refusal is an instruction's. -/
inductive Refusal where
  /-- Raised by no arm of `exec` here: every instruction has its meaning. Safe. -/
  | notModelled (mnemonic : String)
  /-- Raised by every operation but the reads once the core has faulted (R98, R210). Safe: the model has no run there. -/
  | coreFaulted
  /-- Raised by an operation that the boot phase does not admit (R243). Safe: the model has no run there. -/
  | bootOrder
  /-- Raised by `key_set` with a key outside 0..15 (R224). Safe: the model has no run there. -/
  | badKey
deriving DecidableEq, Repr

/-- `status`: running, or stopped for good by a fault (10_state.md R20, R36; D8). -/
inductive Status where
  | running
  | faulted (record : Fault)
deriving DecidableEq, Repr

/-- `phase`: how far the boot sequence has gone (70_reset_and_hazards.md R243; D20). -/
inductive Phase where
  | created
  | fontsLoaded
  | loaded
deriving DecidableEq, Repr

/-- An output event (60_exceptions.md R222). -/
inductive Event where
  /-- An unimplemented opcode was executed (40_cycle.md R95, R96). -/
  | unimplemented (pc op : Word)
  /-- The sound timer stepped from 1 to 0 (R217). -/
  | soundEnd
deriving DecidableEq, Repr

/-- A host operation (60_exceptions.md R220). Creation is `State.reset`. -/
inductive HostOp where
  /-- `load_fonts()` (R241). -/
  | loadFonts
  /-- `load_rom(bytes)` (R242). -/
  | loadRom (bytes : List Byte)
  /-- `tick()` (R99). -/
  | tick
  /-- `tick_timers()` (R216). -/
  | tickTimers
  /-- `key_set(key, pressed)` (R224). -/
  | keySet (key : Nat) (pressed : Bool)
  /-- `reset_clear_flag()` (R225). -/
  | resetClearFlag
  /-- `reset_display_flag()` (R225). -/
  | resetDisplayFlag
  /-- `display()`, a read (R223). -/
  | display
  /-- `flags()`, a read (R225). -/
  | flags
  /-- `status()`, a read (R220). -/
  | status
deriving DecidableEq, Repr

/-- The state of the core (10_state.md R20), then its parameters and outputs, then the model's own two fields. -/
structure State where
  /-- `mem`, 4096 bytes (R37). -/
  mem : Memory
  /-- `V[0]`..`V[15]` (R22); V[15] is VF (R23). -/
  v : Vector Byte 16
  /-- `I`, the index register (R26). -/
  i : Word
  /-- `pc`, the next instruction to fetch (R27). -/
  pc : Word
  /-- `stack[0]`..`stack[15]` (R29). -/
  stack : Vector Word 16
  /-- `sp`, the number of live stack entries, 0..16 (R29, R30). -/
  sp : Fin 17
  /-- `DT`, the delay timer (R31). -/
  dt : Byte
  /-- `ST`, the sound timer (R31). -/
  st : Byte
  /-- `disp`, the display buffer (R32). -/
  disp : Display
  /-- `keys`, which keys are held (R33). -/
  keys : Vector Bool 16
  /-- `clear_flag` (R34). -/
  clearFlag : Bool
  /-- `display_flag` (R34). -/
  displayFlag : Bool
  /-- `status` (R36). -/
  status : Status
  /-- `phase` (R20). -/
  phase : Phase
  /-- FONT_TABLE and VF_ALIAS_ORDER (00_scope.md R9): nothing changes them (log 6, log 7). -/
  config : Config
  /-- The event output, oldest first (00_scope.md R14; log 11). -/
  events : List Event
  /-- The model's own: how many `RandomByte()` draws were made (log 8). -/
  draws : Nat
  /-- The model's own: the host operations still to come (60_exceptions.md R221; log 9). -/
  schedule : List HostOp
deriving DecidableEq, Repr

/-- A display with no pixel set. -/
def Display.blank : Display := Vector.replicate 32 (Vector.replicate 64 false)

/-- The state at creation for given parameters (10_state.md R40; log 1 to 5). -/
def State.created (c : Config) : State where
  mem := []
  v := Vector.replicate 16 0x00#8
  i := 0x0000#16
  pc := 0x0200#16
  stack := Vector.replicate 16 0x0000#16
  sp := 0
  dt := 0x00#8
  st := 0x00#8
  disp := Display.blank
  keys := Vector.replicate 16 false
  clearFlag := false
  displayFlag := false
  status := .running
  phase := .created
  config := c
  events := []
  draws := 0
  schedule := []

/-- Reset is creation (70_reset_and_hazards.md R240), with the spec's default parameters. -/
def State.reset : State := State.created Config.default

end Sys2Proof.Machine
end

