-- ==== Sys2Proof/Machine/Ops.lean ====
section
/-! DEFINITION. The named operations over memory, registers and the other pieces of state; fetching; and taking a fault. -/

namespace Sys2Proof.Machine

/-- The three outcomes of an operation of this machine (00_scope.md R15). -/
abbrev Result := Host.Outcome State Fault Refusal

/-! Memory (20_memory.md R50-R56). Every access is checked against MEM_SIZE before it is made (R54), so the two primitives
below are used at addresses below 4096 only. -/

/-- `MemRead(addr, 1)` (00_scope.md R13). -/
def Memory.read : Memory → Nat → Byte
  | [], _ => Memory.unlisted
  | (k, c) :: m, a => if k = a then c else Memory.read m a

/-- `MemWrite(addr, 1, v)` (00_scope.md R13), keeping the canonical form. -/
def Memory.write : Memory → Nat → Byte → Memory
  | [], a, b => if b = Memory.unlisted then [] else [(a, b)]
  | (k, c) :: m, a, b =>
    if a < k then (if b = Memory.unlisted then (k, c) :: m else (a, b) :: (k, c) :: m)
    else if a = k then (if b = Memory.unlisted then m else (k, b) :: m)
    else (k, c) :: Memory.write m a b

/-- Write bytes at ascending addresses from `a`. -/
def Memory.writeBytes : Memory → Nat → List Byte → Memory
  | m, _, [] => m
  | m, a, b :: bs => Memory.writeBytes (Memory.write m a b) (a + 1) bs

/-- The n bytes from address `a` on (00_scope.md R13). -/
def Memory.readBytes (m : Memory) : Nat → Nat → List Byte
  | _, 0 => []
  | a, n + 1 => Memory.read m a :: Memory.readBytes m (a + 1) n

/-- `MemRead(addr, 2)`: big-endian (20_memory.md R51). -/
def Memory.readWord (m : Memory) (a : Nat) : Word := wordOfBytes (Memory.read m a) (Memory.read m (a + 1))

/-! Registers (10_state.md R22-R34): each has one home, and every meaning reads and writes it here. -/

/-- Read `V[x]`. No register is hardwired (10_state.md R22). -/
def State.readV (s : State) (x : Nibble) : Byte := s.v[x.toNat]'(x.isLt)

/-- Write `V[x]`. -/
def State.writeV (s : State) (x : Nibble) (b : Byte) : State := { s with v := s.v.set x.toNat b x.isLt }

/-- VF, the flag register: register 15 (10_state.md R23). -/
def regF : Nibble := 15#4

/-- Write `pc`. -/
def State.setPc (s : State) (a : Word) : State := { s with pc := a }

/-- Write `I`. -/
def State.setI (s : State) (a : Word) : State := { s with i := a }

/-- Write the delay timer. -/
def State.setDt (s : State) (b : Byte) : State := { s with dt := b }

/-- Write the sound timer. -/
def State.setSt (s : State) (b : Byte) : State := { s with st := b }

/-- Replace memory. -/
def State.setMem (s : State) (m : Memory) : State := { s with mem := m }

/-- Replace the display buffer. -/
def State.setDisp (s : State) (d : Display) : State := { s with disp := d }

/-- Write `clear_flag`. -/
def State.setClearFlag (s : State) (b : Bool) : State := { s with clearFlag := b }

/-- Write `display_flag`. -/
def State.setDisplayFlag (s : State) (b : Bool) : State := { s with displayFlag := b }

/-- Replace the call stack and its pointer. -/
def State.setStack (s : State) (k : Vector Word 16) (n : Fin 17) : State := { s with stack := k, sp := n }

/-- Replace the key state. -/
def State.setKeys (s : State) (k : Vector Bool 16) : State := { s with keys := k }

/-- Write `status`. -/
def State.setStatus (s : State) (t : Status) : State := { s with status := t }

/-- Write `phase`. -/
def State.setPhase (s : State) (p : Phase) : State := { s with phase := p }

/-- Replace the operations still to come (log 9). -/
def State.setSchedule (s : State) (l : List HostOp) : State := { s with schedule := l }

/-- `emit E`: append to the event output (00_scope.md R14). -/
def State.emit (s : State) (e : Event) : State := { s with events := s.events ++ [e] }

/-- Count one `RandomByte()` draw, so that the next one is another free value (log 8). -/
def State.countDraw (s : State) : State := { s with draws := s.draws + 1 }

/-! The program counter (10_state.md R27, R28): arithmetic modulo 2^16 (D12; log 17). -/

/-- The advance of a fetch, and the skip of an instruction: `pc <- wrap16(pc + 2)` (40_cycle.md R92, 41_flow.md). -/
def State.advance (s : State) : State := s.setPc (s.pc + 2#16)

/-- The rewind of FX0A: `pc <- wrap16(pc - 2)` (45_keys_timers.md R183). -/
def State.rewind (s : State) : State := s.setPc (s.pc - 2#16)

/-- Skip the next word when the test holds; its content is never looked at (41_flow.md, R252). -/
def State.skipIf (s : State) (test : Bool) : State := if test then s.advance else s

/-- The address `a` the executing instruction was fetched from: `pc` is `a + 2` (40_cycle.md R92; DEDUCED; log 14). -/
def State.instrAddr (s : State) : Word := s.pc - 2#16

/-! The call stack (10_state.md R29). -/

/-- Push: store at `stack[sp]`, then increment; `none` at capacity (41_flow.md R103). -/
def State.push (s : State) (a : Word) : Option State :=
  if h : s.sp.val < 16 then some (s.setStack (s.stack.set s.sp.val a h) ⟨s.sp.val + 1, by omega⟩) else none

/-- Pop: decrement, then read `stack[sp]`, which keeps its value (D29; log 31); `none` when empty (41_flow.md R100). -/
def State.pop (s : State) : Option (Word × State) :=
  if h : s.sp.val = 0 then none
  else some (s.stack[s.sp.val - 1]'(by omega), s.setStack s.stack ⟨s.sp.val - 1, by omega⟩)

/-! Faults (60_exceptions.md R200-R212). The core has no trap entry, handler or return (R211, R212). -/

/-- The code of a fault (60_exceptions.md R200; the numbers are the spec's own, D9; log 13). -/
def Fault.code : Fault → Nat
  | .stackOverflow _ _ => 1
  | .stackUnderflow _ _ => 2
  | .fetchOutOfRange _ _ => 3
  | .memoryOutOfRange _ _ _ => 4
  | .romTooLarge => 5
  | .keyIndexOutOfRange _ _ => 6

/-- The record's `pc`: where the faulting instruction was fetched from, none for `load_rom` (R207). -/
def Fault.pc? : Fault → Option Word
  | .stackOverflow pc _ => some pc
  | .stackUnderflow pc _ => some pc
  | .fetchOutOfRange pc _ => some pc
  | .memoryOutOfRange pc _ _ => some pc
  | .romTooLarge => none
  | .keyIndexOutOfRange pc _ => some pc

/-- The record's `op`: the instruction word, none for FetchOutOfRange and `load_rom` (R207). -/
def Fault.op? : Fault → Option Word
  | .stackOverflow _ op => some op
  | .stackUnderflow _ op => some op
  | .fetchOutOfRange _ _ => none
  | .memoryOutOfRange _ op _ => some op
  | .romTooLarge => none
  | .keyIndexOutOfRange _ op => some op

/-- The record's `addr`, as the last column of R200 gives it. -/
def Fault.addr? : Fault → Option Nat
  | .stackOverflow _ _ => none
  | .stackUnderflow _ _ => none
  | .fetchOutOfRange _ addr => some addr
  | .memoryOutOfRange _ _ addr => some addr
  | .romTooLarge => some memSize
  | .keyIndexOutOfRange _ _ => none

/-- `raise Fault(kind, info)` from an instruction: the operation ends with the fault, and its record names the
instruction's address and word (R207, R209; log 14). -/
def raiseFrom (kind : Word → Word → Fault) (i : Instr) (s : State) : Result :=
  .fault (kind s.instrAddr (encode i))

/-- Taking a fault: the state is the one before the operation, and `status` is `Faulted(record)` from then on
(40_cycle.md R97, 60_exceptions.md R209, R210; log 10). -/
def State.takeFault (s : State) (f : Fault) : State := s.setStatus (.faulted f)

/-- The state an operation performed in `s` leaves: its next state, or `s` with the fault taken, or `s`
(00_scope.md R15). -/
def State.leftBy (s : State) : Result → State
  | .next t => t
  | .fault f => s.takeFault f
  | .refused _ => s

/-! Fetch (40_cycle.md R91). -/

/-- The lowest byte address of `a .. a+n-1` that is out of range, if one is (20_memory.md R54). Addresses are exact
naturals (D10; log 15). -/
def outOfRange? (a n : Nat) : Option Nat :=
  if 0 < n ∧ memSize ≤ a + n - 1 then some (if memSize ≤ a then a else memSize) else none

/-- Fetch the word at `pc`, at any alignment (20_memory.md R55), or fault when one lies past 0xFFF (R91, R203). -/
def State.fetch (s : State) : Except Fault Word :=
  match outOfRange? s.pc.toNat 2 with
  | some addr => .error (.fetchOutOfRange s.pc addr)
  | none => .ok (s.mem.readWord s.pc.toNat)

end Sys2Proof.Machine
end

