-- ==== Sys2Proof/Machine/Flags.lean ====
section
/-! DEFINITION. The values instructions write into VF as a flag (10_state.md R35), the results of the flag-writing ALU
instructions, and the order of the two writes (42_alu.md R132). -/

namespace Sys2Proof.Machine

/-- 8XY4: 1 when the exact sum passes 255 (42_alu.md R126). -/
def carryFlag (vx vy : Byte) : Byte := b2n (decide (255 < vx.toNat + vy.toNat))

/-- 8XY5 (and 8XY7 with its operands exchanged): 1 when the first is strictly greater, so 0 when they are equal
(42_alu.md R127, R128; 90_conflicts.md C1; log 32). -/
def greaterFlag (a b : Byte) : Byte := b2n (decide (b.toNat < a.toNat))

/-- 8XY6 and 8XYE: bit 0 before the shift, for both directions (42_alu.md R129, R130; log 36). -/
def lowBitFlag (vx : Byte) : Byte := vx &&& 1#8

/-- 8XY4: `wrap8(vx + vy)`. -/
def addResult (vx vy : Byte) : Byte := vx + vy

/-- 8XY5, and 8XY7 with its operands exchanged: `wrap8(a - b)`. -/
def subResult (a b : Byte) : Byte := a - b

/-- 8XY6: `vx >> 1`. -/
def shrResult (vx : Byte) : Byte := vx >>> 1

/-- 8XYE: `wrap8(vx << 1)`. -/
def shlResult (vx : Byte) : Byte := vx <<< 1

/-- Write VF and then V[x], both from operands read at the start. -/
def State.flagThenResult (s : State) (x : Nibble) (flag res : Byte) : State := (s.writeV regF flag).writeV x res

/-- Write V[x] and then VF, both from operands read at the start. -/
def State.resultThenFlag (s : State) (x : Nibble) (flag res : Byte) : State := (s.writeV x res).writeV regF flag

/-- A flag-writing ALU instruction whose AS_LISTED form computes its result before the flag is written: 8XY4
(42_alu.md R132). -/
def State.flaggedSum (s : State) (x y : Nibble) (flag res : Byte → Byte → Byte) : State :=
  match s.config.vfAliasOrder with
  | .asListed => s.flagThenResult x (flag (s.readV x) (s.readV y)) (res (s.readV x) (s.readV y))
  | .snapshotResultLast => s.flagThenResult x (flag (s.readV x) (s.readV y)) (res (s.readV x) (s.readV y))
  | .snapshotFlagLast => s.resultThenFlag x (flag (s.readV x) (s.readV y)) (res (s.readV x) (s.readV y))

/-- A flag-writing ALU instruction whose AS_LISTED form reads the registers again after the flag write: 8XY5, 8XY7, and
the shifts, which ignore their second operand (42_alu.md R132). -/
def State.flaggedReread (s : State) (x y : Nibble) (flag res : Byte → Byte → Byte) : State :=
  match s.config.vfAliasOrder with
  | .asListed =>
    let s1 := s.writeV regF (flag (s.readV x) (s.readV y))
    s1.writeV x (res (s1.readV x) (s1.readV y))
  | .snapshotResultLast => s.flagThenResult x (flag (s.readV x) (s.readV y)) (res (s.readV x) (s.readV y))
  | .snapshotFlagLast => s.resultThenFlag x (flag (s.readV x) (s.readV y)) (res (s.readV x) (s.readV y))

end Sys2Proof.Machine
end

