-- ==== Sys2Proof/Machine/Operands.lean ====
section
/-! DEFINITION. The operand forms: immediates, computed targets and addresses, the index-relative range check, decimal
digits, and key indices (30_encoding.md R73, 43_index_memory.md R154). -/

namespace Sys2Proof.Machine

/-- A 12-bit address written to `pc` or `I`: zero-extended (30_encoding.md R73). -/
def addressOf (nnn : Addr12) : Word := nnn.setWidth 16

/-- The BNNN target `nnn + V[0]`: the exact sum, at most 0x10FE (41_flow.md R108; D11; log 16). -/
def State.jumpV0Target (s : State) (nnn : Addr12) : Word := BitVec.ofNat 16 (nnn.toNat + (s.readV 0#4).toNat)

/-- The FX29 address `V[x] * 5`, not reduced to 4 bits (43_index_memory.md R152; D28; log 30). -/
def glyphAddr (b : Byte) : Word := BitVec.ofNat 16 (b.toNat * glyphBytes)

/-- `I` plus a register, modulo 2^16 (43_index_memory.md R151). -/
def State.indexPlus (s : State) (b : Byte) : Word := s.i + b.setWidth 16

/-- The effective address of the k-th byte: the exact natural `I + k` (43_index_memory.md; D10; log 15). -/
def State.indexAddr (s : State) (k : Nat) : Nat := s.i.toNat + k

/-- `IndexCheck(k)`: the address to record when the k bytes from `I` are not all in memory (43_index_memory.md R154). -/
def State.indexFault? (s : State) (k : Nat) : Option Nat := outOfRange? (s.indexAddr 0) k

/-- Run an index-relative instruction of k bytes: the check precedes every effect (R154). -/
def State.checkedIndex (s : State) (k : Nat) (i : Instr) (next : State) : Result :=
  match s.indexFault? k with
  | some addr => raiseFrom (fun pc op => .memoryOutOfRange pc op addr) i s
  | none => .next next

/-- The decimal digits of a byte: hundreds, tens, ones (43_index_memory.md R153). -/
def decimalDigits (b : Byte) : List Byte :=
  [BitVec.ofNat 8 (b.toNat / 100), BitVec.ofNat 8 (b.toNat / 10 % 10), BitVec.ofNat 8 (b.toNat % 10)]

/-- The number of registers V[0]..V[x] (43_index_memory.md R155). -/
def regCount (x : Nibble) : Nat := x.toNat + 1

/-- Store V[0]..V[n-1] at `I`, `I+1`, ... (43_index_memory.md R155). -/
def State.storeRegs (s : State) : Nat → Memory
  | 0 => s.mem
  | n + 1 => Memory.write (s.storeRegs n) (s.indexAddr n) (s.readV (BitVec.ofNat 4 n))

/-- Load V[0]..V[n-1] from `I`, `I+1`, ... (43_index_memory.md R156). -/
def State.loadRegs (s : State) : Nat → State
  | 0 => s
  | n + 1 => (s.loadRegs n).writeV (BitVec.ofNat 4 n) (s.mem.read (s.indexAddr n))

/-- Is key k held? Keys are 0..15 (10_state.md R33). -/
def State.keyHeld (s : State) (k : Nat) : Bool := if h : k < 16 then s.keys[k] else false

/-- The lowest key held: keys are scanned in ascending order (45_keys_timers.md R183). -/
def State.firstKey? (s : State) : Option Nat := (List.range 16).find? (fun k => s.keyHeld k)

/-- A skip on the key whose index is V[x]; an index of 16 or more is a fault (45_keys_timers.md R180, R181; D14; log 19). -/
def State.keySkip (s : State) (x : Nibble) (i : Instr) (pressed : Bool) : Result :=
  if 16 ≤ (s.readV x).toNat then raiseFrom (fun pc op => .keyIndexOutOfRange pc op) i s
  else .next (s.skipIf (s.keyHeld (s.readV x).toNat == pressed))

end Sys2Proof.Machine
end

