-- ==== Sys2Proof/Machine/Alu.lean ====
section
/-! DEFINITION. Register loads, arithmetic and logic (42_alu.md). None of these writes `pc`, reads memory or can fault. -/

namespace Sys2Proof.Machine

/-- 6XNN (42_alu.md R120). -/
def execLdImm (x : Nibble) (nn : Byte) (s : State) : Result := .next (s.writeV x nn)

/-- 7XNN: wraps, no flag (42_alu.md R121). -/
def execAddImm (x : Nibble) (nn : Byte) (s : State) : Result := .next (s.writeV x (addResult (s.readV x) nn))

/-- 8XY0 (42_alu.md R122). -/
def execLdReg (x y : Nibble) (s : State) : Result := .next (s.writeV x (s.readV y))

/-- 8XY1: no flag (42_alu.md R123). -/
def execOrReg (x y : Nibble) (s : State) : Result := .next (s.writeV x (s.readV x ||| s.readV y))

/-- 8XY2: no flag (42_alu.md R124). -/
def execAndReg (x y : Nibble) (s : State) : Result := .next (s.writeV x (s.readV x &&& s.readV y))

/-- 8XY3: no flag (42_alu.md R125). -/
def execXorReg (x y : Nibble) (s : State) : Result := .next (s.writeV x (s.readV x ^^^ s.readV y))

/-- 8XY4 (42_alu.md R126, R132). -/
def execAddReg (x y : Nibble) (s : State) : Result := .next (s.flaggedSum x y carryFlag addResult)

/-- 8XY5 (42_alu.md R127, R132). -/
def execSubReg (x y : Nibble) (s : State) : Result := .next (s.flaggedReread x y greaterFlag subResult)

/-- 8XY7: 8XY5 with the operands exchanged (42_alu.md R128, R132). -/
def execSubnReg (x y : Nibble) (s : State) : Result :=
  .next (s.flaggedReread x y (fun vx vy => greaterFlag vy vx) (fun vx vy => subResult vy vx))

/-- 8XY6: of V[x]; y is ignored (42_alu.md R129, R132). -/
def execShr (x _y : Nibble) (s : State) : Result :=
  .next (s.flaggedReread x x (fun vx _ => lowBitFlag vx) (fun vx _ => shrResult vx))

/-- 8XYE: of V[x]; y is ignored; VF is the low bit (42_alu.md R130, R132; log 36). -/
def execShl (x _y : Nibble) (s : State) : Result :=
  .next (s.flaggedReread x x (fun vx _ => lowBitFlag vx) (fun vx _ => shlResult vx))

/-- CXNN for a given draw (42_alu.md R131). -/
def State.randomAnd (s : State) (draw : Byte) (x : Nibble) (nn : Byte) : State := s.countDraw.writeV x (draw &&& nn)

/-- CXNN: one draw, a free value (42_alu.md R131; D7; log 8). -/
def execRnd (x : Nibble) (nn : Byte) (s : State) : Result := .next (s.randomAnd (Config.randomByte s.draws) x nn)

end Sys2Proof.Machine
end

