-- ==== Sys2Proof/Machine/Display.lean ====
section
/-! DEFINITION. The display: clear and sprite draw (44_display.md). Neither instruction writes `pc`. -/

namespace Sys2Proof.Machine

/-- The pixel at column px and row py (10_state.md R32). -/
def Display.pixel (d : Display) (px : Fin 64) (py : Fin 32) : Bool := d[py.val][px.val]

/-- Invert one pixel. -/
def Display.toggle (d : Display) (px : Fin 64) (py : Fin 32) : Display :=
  d.set py.val (d[py.val].set px.val (!d[py.val][px.val]))

/-- The column of the k-th bit of a row anchored at column cx: every pixel wraps on its own (44_display.md R171). -/
def wrapColumn (cx k : Nat) : Fin 64 := Fin.ofNat 64 (cx + k)

/-- The display row of the k-th sprite row anchored at row cy: every pixel wraps on its own (44_display.md R171). -/
def wrapRow (cy k : Nat) : Fin 32 := Fin.ofNat 32 (cy + k)

/-- A draw in progress: the buffer, and whether a set pixel has been toggled. -/
structure Drawing where
  disp : Display
  collision : Bool
deriving DecidableEq, Repr

/-- Toggle one pixel of a draw, and note a collision when it was set (44_display.md R171). -/
def drawPixel (px : Fin 64) (py : Fin 32) (acc : Drawing) : Drawing :=
  { disp := acc.disp.toggle px py, collision := acc.collision || acc.disp.pixel px py }

/-- One bit of a sprite row: column `col` is bit `7 - col`, and a clear bit leaves its pixel alone (44_display.md R171). -/
def drawBit (b : Byte) (cx : Nat) (py : Fin 32) (acc : Drawing) (col : Nat) : Drawing :=
  if b.getLsbD (7 - col) then drawPixel (wrapColumn cx col) py acc else acc

/-- One sprite row: eight bits, the most significant first (44_display.md R171). -/
def drawRow (b : Byte) (cx : Nat) (py : Fin 32) (acc : Drawing) : Drawing :=
  (List.range 8).foldl (drawBit b cx py) acc

/-- A sprite of n rows, read from memory at `I` (44_display.md R171). -/
def State.drawSprite (s : State) (cx cy n : Nat) : Drawing :=
  (List.range n).foldl (fun acc row => drawRow (s.mem.read (s.indexAddr row)) cx (wrapRow cy row) acc)
    { disp := s.disp, collision := false }

/-- The anchor column of DXYN, from V[x] before VF is reset (44_display.md R171). -/
def State.anchorX (s : State) (x : Nibble) : Nat := (s.readV x).toNat % 64

/-- The anchor row of DXYN, from V[y] before VF is reset (44_display.md R171). -/
def State.anchorY (s : State) (y : Nibble) : Nat := (s.readV y).toNat % 32

/-- The effect of a finished draw: the buffer, VF and `display_flag`, the last two 1 and true exactly on a collision
(44_display.md R171, R172; 90_conflicts.md C2; log 32). -/
def State.finishDraw (s : State) (d : Drawing) : State :=
  ((s.setDisp d.disp).writeV regF (b2n d.collision)).setDisplayFlag d.collision

/-- 00E0 (44_display.md R170). -/
def execCls (s : State) : Result := .next ((s.setDisp Display.blank).setClearFlag true)

/-- DXYN (44_display.md R171). -/
def execDrw (x y n : Nibble) (s : State) : Result :=
  s.checkedIndex n.toNat (.drw x y n) (s.finishDraw (s.drawSprite (s.anchorX x) (s.anchorY y) n.toNat))

end Sys2Proof.Machine
end

