-- ==== Sys2Proof/Machine/Flow.lean ====
section
/-! DEFINITION. System calls, jumps, calls and skips (41_flow.md). `s` is the state after the fetch: `pc = a + 2`. -/

namespace Sys2Proof.Machine

/-- 00EE (41_flow.md R100). -/
def execRet (s : State) : Result :=
  match s.pop with
  | some (a, t) => .next (t.setPc a)
  | none => raiseFrom (fun pc op => .stackUnderflow pc op) .ret s

/-- 00NN: ignored, with no event (41_flow.md R101). -/
def execSys (_nn : Byte) (s : State) : Result := .next s

/-- 1NNN (41_flow.md R102). -/
def execJp (nnn : Addr12) (s : State) : Result := .next (s.setPc (addressOf nnn))

/-- 2NNN: the address pushed is `pc`, already past the call (41_flow.md R103). -/
def execCall (nnn : Addr12) (s : State) : Result :=
  match s.push s.pc with
  | some t => .next (t.setPc (addressOf nnn))
  | none => raiseFrom (fun pc op => .stackOverflow pc op) (.call nnn) s

/-- 3XNN (41_flow.md R104). -/
def execSeImm (x : Nibble) (nn : Byte) (s : State) : Result := .next (s.skipIf (s.readV x == nn))

/-- 4XNN (41_flow.md R105). -/
def execSneImm (x : Nibble) (nn : Byte) (s : State) : Result := .next (s.skipIf (s.readV x != nn))

/-- 5XY0 (41_flow.md R106). -/
def execSeReg (x y : Nibble) (s : State) : Result := .next (s.skipIf (s.readV x == s.readV y))

/-- 9XY0 (41_flow.md R107). -/
def execSneReg (x y : Nibble) (s : State) : Result := .next (s.skipIf (s.readV x != s.readV y))

/-- BNNN: V[0] whatever the n2 nibble (41_flow.md R108). -/
def execJpV0 (nnn : Addr12) (s : State) : Result := .next (s.setPc (s.jumpV0Target nnn))

/-- A word no row matches: one diagnostic event, nothing else (40_cycle.md R95, R96). -/
def execUnimplemented (op : Word) (s : State) : Result := .next (s.emit (.unimplemented s.instrAddr op))

end Sys2Proof.Machine
end

