-- ==== Sys2Proof/Machine/IndexMemory.lean ====
section
/-! DEFINITION. The index register and memory transfers (43_index_memory.md). None of these writes `pc`. -/

namespace Sys2Proof.Machine

/-- ANNN (43_index_memory.md R150). -/
def execLdI (nnn : Addr12) (s : State) : Result := .next (s.setI (addressOf nnn))

/-- FX1E: wraps at 16 bits, no flag, no fault (43_index_memory.md R151). -/
def execAddI (x : Nibble) (s : State) : Result := .next (s.setI (s.indexPlus (s.readV x)))

/-- FX29 (43_index_memory.md R152). -/
def execLdF (x : Nibble) (s : State) : Result := .next (s.setI (glyphAddr (s.readV x)))

/-- FX33: I is not changed (43_index_memory.md R153; D15; log 20). -/
def execLdB (x : Nibble) (s : State) : Result :=
  s.checkedIndex 3 (.ldB x) (s.setMem (s.mem.writeBytes (s.indexAddr 0) (decimalDigits (s.readV x))))

/-- FX55: I is not changed (43_index_memory.md R155; D15; log 20). -/
def execLdMemVx (x : Nibble) (s : State) : Result :=
  s.checkedIndex (regCount x) (.ldMemVx x) (s.setMem (s.storeRegs (regCount x)))

/-- FX65: I is not changed (43_index_memory.md R156; D15; log 20). -/
def execLdVxMem (x : Nibble) (s : State) : Result :=
  s.checkedIndex (regCount x) (.ldVxMem x) (s.loadRegs (regCount x))

end Sys2Proof.Machine
end

