-- ==== Sys2Proof/Machine/KeysTimers.lean ====
section
/-! DEFINITION. Keys and timers (45_keys_timers.md). -/

namespace Sys2Proof.Machine

/-- EX9E (45_keys_timers.md R180). -/
def execSkp (x : Nibble) (s : State) : Result := s.keySkip x (.skp x) true

/-- EXA1 (45_keys_timers.md R181). -/
def execSknp (x : Nibble) (s : State) : Result := s.keySkip x (.sknp x) false

/-- FX07 (45_keys_timers.md R182). -/
def execLdVxDt (x : Nibble) (s : State) : Result := .next (s.writeV x s.dt)

/-- FX0A: the lowest held key, or the same instruction again at the next tick (45_keys_timers.md R183). -/
def execLdVxKey (x : Nibble) (s : State) : Result :=
  match s.firstKey? with
  | some k => .next (s.writeV x (BitVec.ofNat 8 k))
  | none => .next s.rewind

/-- FX15 (45_keys_timers.md R184). -/
def execLdDtVx (x : Nibble) (s : State) : Result := .next (s.setDt (s.readV x))

/-- FX18: emits nothing (45_keys_timers.md R185; D18; log 23). -/
def execLdStVx (x : Nibble) (s : State) : Result := .next (s.setSt (s.readV x))

end Sys2Proof.Machine
end

