-- ==== Sys2Proof/Machine/HostInterface.lean ====
section
/-! DEFINITION. The host operations but `tick`: the loaders, the timer step, key input, the dirty flags and the reads
(60_exceptions.md R216-R225, 70_reset_and_hazards.md R241-R243). -/

namespace Sys2Proof.Machine

/-- Is an operation that needs this phase admitted? A faulted core is refused first, then a wrong phase
(60_exceptions.md R210, 70_reset_and_hazards.md R243; log 25). -/
def State.ifAdmitted (s : State) (phase : Phase) (run : Result) : Result :=
  match s.status with
  | .faulted _ => .refused .coreFaulted
  | .running => if s.phase = phase then run else .refused .bootOrder

/-- `load_fonts()`: FONT_TABLE at 0x000 (70_reset_and_hazards.md R241). -/
def opLoadFonts (s : State) : Result :=
  s.ifAdmitted .created
    (.next ((s.setMem (s.mem.writeBytes fontBase s.config.fontTable.toList)).setPhase .fontsLoaded))

/-- `load_rom(bytes)`: the bytes at 0x200, or a fault that writes none of them (70_reset_and_hazards.md R242). -/
def opLoadRom (bytes : List Byte) (s : State) : Result :=
  s.ifAdmitted .fontsLoaded
    (if romMax < bytes.length then .fault .romTooLarge
     else .next ((s.setMem (s.mem.writeBytes romBase bytes)).setPhase .loaded))

/-- A timer's decrement: it saturates at 0 (10_state.md R31). -/
def countDown (b : Byte) : Byte := if b = 0#8 then 0#8 else b - 1#8

/-- The timer step itself: `SoundEnd` exactly on the sound timer's step from 1 to 0 (60_exceptions.md R216, R217). -/
def State.stepTimers (s : State) : State :=
  let t := (s.setDt (countDown s.dt)).setSt (countDown s.st)
  if s.st = 1#8 then t.emit .soundEnd else t

/-- `tick_timers()` (60_exceptions.md R216). -/
def opTickTimers (s : State) : Result := s.ifAdmitted .loaded (.next s.stepTimers)

/-- `key_set(key, pressed)` (60_exceptions.md R224). -/
def opKeySet (key : Nat) (pressed : Bool) (s : State) : Result :=
  s.ifAdmitted .loaded (if h : key < 16 then .next (s.setKeys (s.keys.set key pressed h)) else .refused .badKey)

/-- `reset_clear_flag()` (60_exceptions.md R225; D24; log 27). -/
def opResetClearFlag (s : State) : Result := s.ifAdmitted .loaded (.next (s.setClearFlag false))

/-- `reset_display_flag()` (60_exceptions.md R225; D24; log 27). -/
def opResetDisplayFlag (s : State) : Result := s.ifAdmitted .loaded (.next (s.setDisplayFlag false))

/-- A read: always admitted, changes nothing (60_exceptions.md R210, R220; log 35). -/
def opRead (s : State) : Result := .next s

/-! What the reads return. -/

/-- `display()`: the 2048 pixels, at linear index `x + 64*y` (60_exceptions.md R223). -/
def State.displayView (s : State) : List Bool := s.disp.toList.flatMap Vector.toList

/-- `flags()`: `(clear_flag, display_flag)` (60_exceptions.md R225). -/
def State.flagsView (s : State) : Bool × Bool := (s.clearFlag, s.displayFlag)

/-- `status()`: none while running, else the fault record (60_exceptions.md R207, R220). -/
def State.statusView (s : State) : Option Fault :=
  match s.status with
  | .running => none
  | .faulted f => some f

end Sys2Proof.Machine
end

