-- ==== Sys2Proof/Machine/Tick.lean ====
section
/-! DEFINITION. The cycle (40_cycle.md R90-R99), and performing one host operation (60_exceptions.md R220). -/

namespace Sys2Proof.Machine

/-- `tick()`: one fetch-decode-execute step; `pc` has advanced before the instruction runs (40_cycle.md R92-R94, R99). -/
def opTick (s : State) : Result :=
  s.ifAdmitted .loaded
    (match s.fetch with
     | .error f => .fault f
     | .ok w => exec (decode w) s.advance)

/-- Perform one host operation (60_exceptions.md R220). -/
def perform (op : HostOp) (s : State) : Result :=
  match op with
  | .loadFonts => opLoadFonts s
  | .loadRom bytes => opLoadRom bytes s
  | .tick => opTick s
  | .tickTimers => opTickTimers s
  | .keySet key pressed => opKeySet key pressed s
  | .resetClearFlag => opResetClearFlag s
  | .resetDisplayFlag => opResetDisplayFlag s
  | .display => opRead s
  | .flags => opRead s
  | .status => opRead s

/-- The state left by operations performed one after another, faults taken and refusals passed over
(60_exceptions.md R210, R221). -/
def runOps : List HostOp → State → State
  | [], s => s
  | op :: ops, s => runOps ops (s.leftBy (perform op s))

/-- The operation the host performs next, and the state it is performed in: the head of the schedule, or a tick where
none is listed (log 9). -/
def State.nextOp (s : State) : HostOp × State :=
  match s.schedule with
  | [] => (.tick, s)
  | op :: ops => (op, s.setSchedule ops)

/-- Store a word at an address, big-endian (20_memory.md R51). -/
def Memory.writeWord (m : Memory) (a : Nat) (w : Word) : Memory := m.writeBytes a [highByte w, lowByte w]

/-- Where the next fetch can read a word: `pc`, or ROM_BASE where no fetch at `pc` succeeds (log 12). -/
def State.fetchSlot (s : State) : Word :=
  match outOfRange? s.pc.toNat 2 with
  | none => s.pc
  | some _ => BitVec.ofNat 16 romBase

/-- A running, booted core whose next operation is a tick that fetches this word (log 12). -/
def State.placeWord (s : State) (op : Word) : State :=
  ((((s.setPc s.fetchSlot).setMem (s.mem.writeWord s.fetchSlot.toNat op)).setStatus .running).setPhase .loaded).setSchedule
    (.tick :: s.schedule)

end Sys2Proof.Machine
end

