-- ==== Sys2Proof/Machine/Step.lean ====
section
/-! DEFINITION. One step of the machine, and placing an instruction where the next step fetches it. -/

namespace Sys2Proof.Machine

/-- One step: the host performs its next operation on the core (60_exceptions.md R221). -/
def step (s : State) : Host.Outcome State Fault Refusal := perform s.nextOp.1 s.nextOp.2

/-- `s` made ready so that the next step fetches and runs the word, its bits numbered as spec/opcode_table.json numbers
them (log 12). -/
def State.withFetchWord (s : State) (nbits w : Nat) : State := s.placeWord (BitVec.ofNat 16 (w % 2 ^ nbits))

end Sys2Proof.Machine
end

