-- ==== Sys2Proof/Safety.lean ====
section
/-! DEFINITION. The terms that claims about the machine use: what is left unchanged, which faults an instruction has,
the invariant of a run, and a halted core. -/

namespace Sys2Proof.Machine

/-! ## What a change leaves alone -/

/-- The pieces of the state. -/
inductive Part where
  | mem | regs | index | pc | stack | delay | sound | disp | clearFlag | displayFlag | keys | status | phase
  | config | events | draws | schedule
deriving DecidableEq, Repr

/-- A piece of the state holds the same in both: memory by every byte's value, registers by every register's. -/
def Part.same (p : Part) (s t : State) : Prop :=
  match p with
  | .mem => ∀ a, t.mem.read a = s.mem.read a
  | .regs => ∀ r, t.readV r = s.readV r
  | .index => t.i = s.i
  | .pc => t.pc = s.pc
  | .stack => t.stack = s.stack ∧ t.sp = s.sp
  | .delay => t.dt = s.dt
  | .sound => t.st = s.st
  | .disp => ∀ px py, t.disp.pixel px py = s.disp.pixel px py
  | .clearFlag => t.clearFlag = s.clearFlag
  | .displayFlag => t.displayFlag = s.displayFlag
  | .keys => t.keys = s.keys
  | .status => t.status = s.status
  | .phase => t.phase = s.phase
  | .config => t.config = s.config
  | .events => t.events = s.events
  | .draws => t.draws = s.draws
  | .schedule => t.schedule = s.schedule

/-- Every piece of the state but those named is unchanged. -/
def Unchanged (but : List Part) (s t : State) : Prop := ∀ p, p ∉ but → p.same s t

/-- Every general register but those named is unchanged. -/
def SameRegsBut (rs : List Nibble) (s t : State) : Prop := ∀ r, r ∉ rs → t.readV r = s.readV r

/-- Nothing changes but these general registers. -/
def OnlyRegs (rs : List Nibble) (s t : State) : Prop := Unchanged [.regs] s t ∧ SameRegsBut rs s t

/-- Every byte outside the n bytes from `a` is unchanged. -/
def SameBytesOutside (a n : Nat) (s t : State) : Prop := ∀ b, b < a ∨ a + n ≤ b → t.mem.read b = s.mem.read b

/-! ## Encodings -/

/-- Every word whose masked bits are the pattern is the instruction its fields give (30_encoding.md R75). -/
def DecodesTo (mask pattern : Word) (build : Word → Instr) : Prop := ∀ w : Word, w &&& mask = pattern → decode w = build w

/-! ## Faults -/

/-- The number of bytes an index-relative instruction accesses from `I` (43_index_memory.md R154). -/
def indexBytes? : Instr → Option Nat
  | .drw _ _ n => some n.toNat
  | .ldB _ => some 3
  | .ldMemVx x => some (x.toNat + 1)
  | .ldVxMem x => some (x.toNat + 1)
  | .cls | .ret | .sys _ | .jp _ | .call _ | .seImm _ _ | .sneImm _ _ | .seReg _ _ | .sneReg _ _ | .ldImm _ _
  | .addImm _ _ | .ldReg _ _ | .orReg _ _ | .andReg _ _ | .xorReg _ _ | .addReg _ _ | .subReg _ _ | .subnReg _ _
  | .shr _ _ | .shl _ _ | .ldI _ | .jpV0 _ | .rnd _ _ | .skp _ | .sknp _ | .ldVxDt _ | .ldVxKey _ | .ldDtVx _
  | .ldStVx _ | .addI _ | .ldF _ | .unimplemented _ => none

/-- The address MemoryOutOfRange records: `I` if it is out of range itself, else 4096 (60_exceptions.md R200). -/
def lowestOutOfRange (a : Nat) : Nat := if 4096 ≤ a then a else 4096

/-- The one fault condition of an instruction, and the record it gives, as the table of 60_exceptions.md R200 lists them
(R208): `none` where the instruction completes. `s` is the state after the fetch, so the instruction stands at `pc - 2`. -/
def faultOf? (i : Instr) (s : State) : Option Fault :=
  match i with
  | .call _ => if s.sp = 16 then some (.stackOverflow (s.pc - 2#16) (encode i)) else none
  | .ret => if s.sp = 0 then some (.stackUnderflow (s.pc - 2#16) (encode i)) else none
  | .skp x => if 16 ≤ (s.readV x).toNat then some (.keyIndexOutOfRange (s.pc - 2#16) (encode i)) else none
  | .sknp x => if 16 ≤ (s.readV x).toNat then some (.keyIndexOutOfRange (s.pc - 2#16) (encode i)) else none
  | i =>
    match indexBytes? i with
    | some k =>
      if 0 < k ∧ 4096 ≤ s.i.toNat + k - 1 then
        some (.memoryOutOfRange (s.pc - 2#16) (encode i) (lowestOutOfRange s.i.toNat))
      else none
    | none => none

/-- The reads among the host operations (60_exceptions.md R220). -/
def HostOp.isRead : HostOp → Bool
  | .display | .flags | .status => true
  | .loadFonts | .loadRom _ | .tick | .tickTimers | .keySet _ _ | .resetClearFlag | .resetDisplayFlag => false

/-- The phase that admits a host operation; the reads are admitted in each (70_reset_and_hazards.md R243). -/
def HostOp.phase? : HostOp → Option Phase
  | .loadFonts => some .created
  | .loadRom _ => some .fontsLoaded
  | .tick | .tickTimers | .keySet _ _ | .resetClearFlag | .resetDisplayFlag => some .loaded
  | .display | .flags | .status => none

/-! ## Sprites -/

/-- Does a sprite of n rows at `I`, anchored at column cx and row cy, have a set bit on this pixel? The pixel lies
`px - cx` columns and `py - cy` rows from the anchor, both around the edge of the display (44_display.md R171). -/
def spriteCovers (s : State) (cx cy n : Nat) (px : Fin 64) (py : Fin 32) : Bool :=
  let col := (px.val + 64 - cx) % 64
  let row := (py.val + 32 - cy) % 32
  decide (col < 8) && decide (row < n) && (s.mem.read (s.i.toNat + row)).getLsbD (7 - col)

/-- Some set pixel lies under a set bit of the sprite (44_display.md R171). -/
def spriteCollides (s : State) (cx cy n : Nat) : Prop :=
  ∃ px py, spriteCovers s cx cy n px py = true ∧ s.disp.pixel px py = true

/-! ## Sequences, and comparing runs -/

/-- Execute instructions one after another. -/
def execSeq : List Instr → State → Result
  | [], s => .next s
  | i :: is, s =>
    match exec i s with
    | .next t => execSeq is t
    | .fault f => .fault f
    | .refused r => .refused r

/-- Apply a change to the next state of an outcome. -/
def mapNext (g : State → State) : Result → Result
  | .next t => .next (g t)
  | .fault f => .fault f
  | .refused r => .refused r

/-- The same core with another VF_ALIAS_ORDER (42_alu.md R132). -/
def State.withOrder (s : State) (o : VfAliasOrder) : State := { s with config := { s.config with vfAliasOrder := o } }

/-! ## Runs -/

/-- What every step keeps: `pc` and the live return addresses stay where 10_state.md R39 puts them, memory keeps its
canonical form, and no address past 0xFFF is listed (20_memory.md R50). -/
structure Inv (s : State) : Prop where
  /-- `pc` is at most 0x10FE (10_state.md R39). -/
  pc_le : s.pc.toNat ≤ 0x10FE
  /-- A live stack entry is a pushed `pc`, at most 0x1000 (10_state.md R39). -/
  stack_le : ∀ k (h : k < 16), k < s.sp.val → (s.stack[k]).toNat ≤ 0x1000
  /-- The canonical form. -/
  mem_wf : Memory.wf s.mem
  /-- No byte outside the address space. -/
  mem_inSpace : Memory.inSpace s.mem

/-- A halted core: a self-jump at `pc` (70_reset_and_hazards.md R263; DESIGN CHOICE of the spec, D22; log 26). -/
def Halted (s : State) : Prop :=
  s.status = .running ∧ s.phase = .loaded ∧ s.pc.toNat ≤ 0xFFE ∧ s.mem.readWord s.pc.toNat = (0x1000#16 ||| s.pc)

end Sys2Proof.Machine
end

