-- ==== Sys2Proof/Certificates/Slice0/Obligations.lean ====
section
/-! DEFINITION. The statements for the provers. In a statement about `exec`, `s` is the state after the fetch: `pc` is the
instruction's address plus 2 (40_cycle.md R92). Decisions D<n> are the spec's own choices; a statement that rests on one
says so. -/

open Sys2Proof
open Sys2Proof.Machine

/-! ## Encoding -/

/-- Decoding an encoded well-formed instruction gives it back, every operand at every value (30_encoding.md R71-R76). -/
def Obligations.DecodeOfEncodeIsIdentity : Prop := ∀ i : Instr, i.wf = true → decode (encode i) = i

/-- Every word decodes to a well-formed instruction that encodes to the same word, so no bit of a word is dropped
(30_encoding.md R71-R77). -/
def Obligations.EncodeOfDecodeIsIdentity : Prop := ∀ w : Word, (decode w).wf = true ∧ encode (decode w) = w

/-- 40_cycle.md R93: the first row of the opcode map, in priority order, whose masked bits match is the one decoded, with
its operand fields, and every word has one. -/
def Obligations.DecodeIsFirstMatchingRow : Prop :=
  ∀ w : Word, ∃ before row after, opcodeTable = before ++ row :: after ∧ row.selects w = true ∧
    (∀ r ∈ before, r.selects w = false) ∧ decode w = row.build w

/-- 30_encoding.md R77: the unimplemented words are exactly those of its table, and every word whose major opcode is
1, 2, 3, 4, 6, 7, A, B, C or D is an instruction. -/
def Obligations.UnimplementedWordsAreThoseListed : Prop :=
  (∀ w : Word, decode w = .unimplemented w ↔ isUnimplementedWord w = true) ∧
  (∀ w op : Word, decode w = .unimplemented op → op = w) ∧
  (∀ w : Word, w.toNat / 4096 ∈ [1, 2, 3, 4, 6, 7, 10, 11, 12, 13] → decode w ≠ .unimplemented w)

/-- Words of 95_test_vectors.md and of the rules' examples, one of each family, decode to the instruction they name. -/
def Obligations.SpecExampleWordsDecode : Prop :=
  decode 0x00E0#16 = .cls ∧ decode 0x00EE#16 = .ret ∧ decode 0x00FF#16 = .sys 0xFF ∧ decode 0x0123#16 = .unimplemented 0x0123 ∧
  decode 0x1234#16 = .jp 0x234 ∧ decode 0x3542#16 = .seImm 5 0x42 ∧ decode 0x9120#16 = .sneReg 1 2 ∧
  decode 0x730A#16 = .addImm 3 0x0A ∧ decode 0x8127#16 = .subnReg 1 2 ∧ decode 0x81F6#16 = .shr 1 15 ∧
  decode 0xC30F#16 = .rnd 3 0x0F ∧ decode 0xD122#16 = .drw 1 2 2 ∧ decode 0xE1A1#16 = .sknp 1 ∧ decode 0xF265#16 = .ldVxMem 2

/-! ## The cycle -/

/-- A step whose next operation is a tick runs the instruction the bytes at `pc` decode to, in the same state with `pc`
past its two bytes (40_cycle.md R91-R94, R99); any other next operation of the host is performed in the same state without
it, and a tick is next where none is listed (60_exceptions.md R220, R221; the queue is the model's own, log 9). -/
def Obligations.StepRunsTheDecodedInstruction : Prop :=
  (∀ (s : State) (i : Instr), s.status = .running → s.phase = .loaded → s.schedule.headD .tick = .tick →
    s.pc.toNat + 1 < 4096 → decodeBytes [s.mem.read s.pc.toNat, s.mem.read (s.pc.toNat + 1)] = .ok (i, []) →
    step s = exec i ((s.setSchedule s.schedule.tail).setPc (s.pc + 2#16))) ∧
  (∀ s : State, step s = perform (s.schedule.headD .tick) (s.setSchedule s.schedule.tail))

/-- A fetch that would read a byte past 0xFFF faults, and records the lowest such address (40_cycle.md R91,
60_exceptions.md R203; D16). -/
def Obligations.FetchPastMemoryFaults : Prop :=
  ∀ s : State, s.status = .running → s.phase = .loaded → 4096 ≤ s.pc.toNat + 1 →
    perform .tick s = .fault (.fetchOutOfRange s.pc (lowestOutOfRange s.pc.toNat))

/-- 20_memory.md R51: `op = mem[pc] * 256 + mem[pc+1]`, and the byte at the lower address holds n1 and n2. -/
def Obligations.FetchIsBigEndian : Prop :=
  ∀ s : State, s.pc.toNat + 1 < 4096 → ∃ op, s.fetch = .ok op ∧
    op.toNat = (s.mem.read s.pc.toNat).toNat * 256 + (s.mem.read (s.pc.toNat + 1)).toNat ∧
    (nibble1 op).toNat = (s.mem.read s.pc.toNat).toNat / 16 ∧ (nibble2 op).toNat = (s.mem.read s.pc.toNat).toNat % 16

/-- A faulting operation leaves the state before it, with only `status` changed, to the fault's record, and a refused one
leaves the state before it (40_cycle.md R97, R98, 60_exceptions.md R209; D8, D20). -/
def Obligations.FaultingOperationChangesOnlyStatus : Prop :=
  (∀ (op : HostOp) (s : State) (f : Fault), perform op s = .fault f →
    Unchanged [.status] s (s.leftBy (perform op s)) ∧ (s.leftBy (perform op s)).status = .faulted f) ∧
  (∀ (op : HostOp) (s : State) (r : Refusal), perform op s = .refused r → s.leftBy (perform op s) = s)

/-- The record of a faulting tick names the address and the word of the faulting instruction, and its code, `addr` and
`op` follow the table of 60_exceptions.md R200 and R207 (the codes: D9, log 13; FetchOutOfRange: D16, log 21;
KeyIndexOutOfRange: D14, log 19). -/
def Obligations.FaultRecordNamesTheInstruction : Prop :=
  ∀ (s : State) (f : Fault), perform .tick s = .fault f → f.pc? = some s.pc ∧
    ((f.code = 3 ∧ f.op? = none ∧ f.addr? = some (lowestOutOfRange s.pc.toNat)) ∨
     (f.code = 4 ∧ f.op? = some (s.mem.readWord s.pc.toNat) ∧ f.addr? = some (lowestOutOfRange s.i.toNat)) ∨
     ((f.code = 1 ∨ f.code = 2 ∨ f.code = 6) ∧ f.op? = some (s.mem.readWord s.pc.toNat) ∧ f.addr? = none))

/-- Every instruction has at most the one fault condition 60_exceptions.md R200 lists for it: under it, it faults with
that record; otherwise it completes; and none is refused (R208). The fault of EX9E and EXA1 at V[x] of 16 or more is the
spec's own choice (D14, log 19). -/
def Obligations.InstructionsFaultExactlyAsListed : Prop :=
  ∀ (i : Instr) (s : State),
    (∀ f, exec i s = .fault f ↔ faultOf? i s = some f) ∧ (faultOf? i s = none → ∃ t, exec i s = .next t) ∧
    (∀ r, exec i s ≠ .refused r)

/-- A faulted core stays as it is whatever the host does: each operation but the reads is refused CoreFaulted, the reads
are admitted, and no sequence of operations changes the state (40_cycle.md R98, 60_exceptions.md R210; D8, D20). -/
def Obligations.FaultedCoreIsFrozen : Prop :=
  ∀ (s : State) (f : Fault), s.status = .faulted f →
    (∀ op : HostOp, op.isRead = false → perform op s = .refused .coreFaulted) ∧
    (∀ op : HostOp, op.isRead = true → perform op s = .next s) ∧ (∀ ops : List HostOp, runOps ops s = s)

/-- An operation the boot phase does not admit is refused BootOrder, and the reads are admitted in every phase
(70_reset_and_hazards.md R243; D20). -/
def Obligations.BootOrderIsEnforced : Prop :=
  ∀ (s : State) (op : HostOp), s.status = .running →
    (∀ p, op.phase? = some p → s.phase ≠ p → perform op s = .refused .bootOrder) ∧
    (op.phase? = none → perform op s = .next s)

/-! ## Control flow -/

/-- 00EE pops: `pc` is the top entry, `sp` one less, the entries as before; with nothing to pop it faults
(41_flow.md R100, 60_exceptions.md R202; the entries kept: D29, log 31). -/
def Obligations.ReturnPopsTheStack : Prop :=
  (∀ (s : State) (k : Nat) (h : k < 16), s.sp.val = k + 1 → ∃ t, exec .ret s = .next t ∧ t.pc = s.stack[k] ∧
    t.sp.val = k ∧ t.stack = s.stack ∧ Unchanged [.pc, .stack] s t) ∧
  (∀ s : State, s.sp = 0 → exec .ret s = .fault (.stackUnderflow (s.pc - 2#16) 0x00EE#16))

/-- 2NNN pushes `pc`, the address after the call, and jumps; with 16 entries it faults (41_flow.md R103,
60_exceptions.md R201). -/
def Obligations.CallPushesTheReturnAddress : Prop :=
  (∀ (s : State) (nnn : Addr12) (k : Nat) (h : k < 16), s.sp.val = k → ∃ t, exec (.call nnn) s = .next t ∧
    t.pc.toNat = nnn.toNat ∧ t.sp.val = k + 1 ∧ t.stack[k] = s.pc ∧
    (∀ (j : Nat) (hj : j < 16), j ≠ k → t.stack[j] = s.stack[j]) ∧ Unchanged [.pc, .stack] s t) ∧
  (∀ (s : State) (nnn : Addr12), s.sp = 16 →
    exec (.call nnn) s = .fault (.stackOverflow (s.pc - 2#16) (0x2#4 ++ nnn)))

/-- A return after a call comes back to the word after it, with the call stack as it was, whatever ran in between left
the stack as the call did (41_flow.md R100, R103, R109). -/
def Obligations.ReturnUndoesCall : Prop :=
  ∀ (s t u : State) (nnn : Addr12), exec (.call nnn) s = .next t → u.stack = t.stack → u.sp = t.sp →
    ∃ r, exec .ret u = .next r ∧ r.pc = s.pc ∧ r.sp = s.sp ∧
      ∀ (j : Nat) (hj : j < 16), j < s.sp.val → r.stack[j] = s.stack[j]

/-- 60_exceptions.md R201: from an empty stack 16 nested calls succeed and the 17th is a fault that writes nothing. -/
def Obligations.SixteenNestedCallsThenOverflow : Prop :=
  ∀ (s : State) (targets : List Addr12), s.sp = 0 →
    (targets.length ≤ 16 → ∃ t, execSeq (targets.map .call) s = .next t ∧ t.sp.val = targets.length) ∧
    (targets.length = 16 → ∀ nnn, ∃ t f, execSeq (targets.map .call) s = .next t ∧ exec (.call nnn) t = .fault f ∧
      f.code = 1 ∧ execSeq ((targets ++ [nnn]).map .call) s = .fault f ∧
      Unchanged [.status] t (t.leftBy (exec (.call nnn) t)))

/-- 1NNN jumps to nnn and BNNN to the exact sum of nnn and V[0], whatever the n2 nibble; nothing else changes
(41_flow.md R102, R108; the sum not masked: D11, log 16). -/
def Obligations.JumpsGoToTheirTarget : Prop :=
  (∀ (s : State) (nnn : Addr12), ∃ t, exec (.jp nnn) s = .next t ∧ t.pc.toNat = nnn.toNat ∧ Unchanged [.pc] s t) ∧
  (∀ (s : State) (nnn : Addr12), ∃ t, exec (.jpV0 nnn) s = .next t ∧
    t.pc.toNat = nnn.toNat + (s.readV 0#4).toNat ∧ Unchanged [.pc] s t)

/-- 00NN, for every nn but E0 and EE, changes nothing and emits nothing (41_flow.md R101); an unimplemented opcode emits one
event with its address and word and changes nothing else (40_cycle.md R95, R96; what the event carries: D26, log 11). -/
def Obligations.IgnoredWordsChangeNothing : Prop :=
  (∀ nn : Byte, nn ≠ 0xE0#8 → nn ≠ 0xEE#8 → decode (0x00#8 ++ nn) = .sys nn) ∧
  (∀ (s : State) (nn : Byte), ∃ t, exec (.sys nn) s = .next t ∧ Unchanged [] s t) ∧
  (∀ (s : State) (op : Word), ∃ t, exec (.unimplemented op) s = .next t ∧
    t.events = s.events ++ [.unimplemented (s.pc - 2#16) op] ∧ Unchanged [.events] s t)

/-- 41_flow.md R104 and R105: 3XNN skips exactly when V[x] is nn, 4XNN exactly when it is not; a skip moves `pc` 2 more. -/
def Obligations.SkipsOnAnImmediate : Prop :=
  DecodesTo 0xF000#16 0x3000#16 (fun w => .seImm (fieldX w) (fieldNN w)) ∧
  DecodesTo 0xF000#16 0x4000#16 (fun w => .sneImm (fieldX w) (fieldNN w)) ∧
  (∀ (s : State) (x : Nibble) (nn : Byte), ∃ t, exec (.seImm x nn) s = .next t ∧
    t.pc = (if s.readV x = nn then s.pc + 2#16 else s.pc) ∧ Unchanged [.pc] s t) ∧
  (∀ (s : State) (x : Nibble) (nn : Byte), ∃ t, exec (.sneImm x nn) s = .next t ∧
    t.pc = (if s.readV x ≠ nn then s.pc + 2#16 else s.pc) ∧ Unchanged [.pc] s t)

/-- 41_flow.md R106 and R107: 5XY0 skips exactly when V[x] is V[y], 9XY0 exactly when it is not; with a last nibble other
than 0 both are unimplemented opcodes. -/
def Obligations.SkipsOnTwoRegisters : Prop :=
  DecodesTo 0xF00F#16 0x5000#16 (fun w => .seReg (fieldX w) (fieldY w)) ∧
  DecodesTo 0xF00F#16 0x9000#16 (fun w => .sneReg (fieldX w) (fieldY w)) ∧
  (∀ w : Word, nibble1 w = 5#4 ∨ nibble1 w = 9#4 → nibble4 w ≠ 0#4 → decode w = .unimplemented w) ∧
  (∀ (s : State) (x y : Nibble), ∃ t, exec (.seReg x y) s = .next t ∧
    t.pc = (if s.readV x = s.readV y then s.pc + 2#16 else s.pc) ∧ Unchanged [.pc] s t) ∧
  (∀ (s : State) (x y : Nibble), ∃ t, exec (.sneReg x y) s = .next t ∧
    t.pc = (if s.readV x ≠ s.readV y then s.pc + 2#16 else s.pc) ∧ Unchanged [.pc] s t)

/-- EX9E skips exactly when the key whose index is V[x] is held, EXA1 exactly when it is not; an index of 16 or more is a
fault (45_keys_timers.md R180, R181, 60_exceptions.md R206; the fault: D14, log 19). -/
def Obligations.SkipsOnAKey : Prop :=
  (∀ (s : State) (x : Nibble) (k : Nat) (h : k < 16), (s.readV x).toNat = k → ∃ t, exec (.skp x) s = .next t ∧
    t.pc = (if s.keys[k] = true then s.pc + 2#16 else s.pc) ∧ Unchanged [.pc] s t) ∧
  (∀ (s : State) (x : Nibble) (k : Nat) (h : k < 16), (s.readV x).toNat = k → ∃ t, exec (.sknp x) s = .next t ∧
    t.pc = (if s.keys[k] = true then s.pc else s.pc + 2#16) ∧ Unchanged [.pc] s t) ∧
  (∀ (s : State) (x : Nibble), 16 ≤ (s.readV x).toNat →
    exec (.skp x) s = .fault (.keyIndexOutOfRange (s.pc - 2#16) (encode (.skp x))) ∧
    exec (.sknp x) s = .fault (.keyIndexOutOfRange (s.pc - 2#16) (encode (.sknp x))))

/-! ## Registers, arithmetic and logic -/

/-- 42_alu.md R120 and R121: 6XNN sets V[x] to nn; 7XNN adds nn to V[x] modulo 256 with no flag; nothing else changes. -/
def Obligations.ImmediateLoadAndAdd : Prop :=
  DecodesTo 0xF000#16 0x6000#16 (fun w => .ldImm (fieldX w) (fieldNN w)) ∧
  DecodesTo 0xF000#16 0x7000#16 (fun w => .addImm (fieldX w) (fieldNN w)) ∧
  (∀ (s : State) (x : Nibble) (nn : Byte), ∃ t, exec (.ldImm x nn) s = .next t ∧ t.readV x = nn ∧ OnlyRegs [x] s t) ∧
  (∀ (s : State) (x : Nibble) (nn : Byte), ∃ t, exec (.addImm x nn) s = .next t ∧
    (t.readV x).toNat = ((s.readV x).toNat + nn.toNat) % 256 ∧ OnlyRegs [x] s t)

/-- 42_alu.md R122-R125: 8XY0 copies V[y] to V[x]; 8XY1, 8XY2 and 8XY3 put the bitwise OR, AND and XOR in V[x]; no flag,
nothing else changes. -/
def Obligations.RegisterCopyAndLogic : Prop :=
  DecodesTo 0xF00F#16 0x8000#16 (fun w => .ldReg (fieldX w) (fieldY w)) ∧
  DecodesTo 0xF00F#16 0x8001#16 (fun w => .orReg (fieldX w) (fieldY w)) ∧
  DecodesTo 0xF00F#16 0x8002#16 (fun w => .andReg (fieldX w) (fieldY w)) ∧
  DecodesTo 0xF00F#16 0x8003#16 (fun w => .xorReg (fieldX w) (fieldY w)) ∧
  (∀ (s : State) (x y : Nibble),
    (∃ t, exec (.ldReg x y) s = .next t ∧ t.readV x = s.readV y ∧ OnlyRegs [x] s t) ∧
    (∃ t, exec (.orReg x y) s = .next t ∧ t.readV x = s.readV x ||| s.readV y ∧ OnlyRegs [x] s t) ∧
    (∃ t, exec (.andReg x y) s = .next t ∧ t.readV x = s.readV x &&& s.readV y ∧ OnlyRegs [x] s t) ∧
    (∃ t, exec (.xorReg x y) s = .next t ∧ t.readV x = s.readV x ^^^ s.readV y ∧ OnlyRegs [x] s t))

/-- 8XY4 puts the sum modulo 256 in V[x] and the carry in VF; where x is 15, VF is the sum, or the carry under
SNAPSHOT_FLAG_LAST (42_alu.md R126 and the table of R132; D6, log 7). -/
def Obligations.AddWithCarry : Prop :=
  ∀ (s : State) (x y : Nibble), ∃ t, exec (.addReg x y) s = .next t ∧ OnlyRegs [x, 15#4] s t ∧
    (x ≠ 15#4 → (t.readV x).toNat = ((s.readV x).toNat + (s.readV y).toNat) % 256 ∧
      t.readV 15#4 = b2n (decide (255 < (s.readV x).toNat + (s.readV y).toNat))) ∧
    (x = 15#4 → s.config.vfAliasOrder ≠ .snapshotFlagLast →
      (t.readV 15#4).toNat = ((s.readV x).toNat + (s.readV y).toNat) % 256) ∧
    (x = 15#4 → s.config.vfAliasOrder = .snapshotFlagLast →
      t.readV 15#4 = b2n (decide (255 < (s.readV x).toNat + (s.readV y).toNat)))

/-- 8XY5 puts V[x] - V[y] modulo 256 in V[x], and in VF whether V[x] is strictly greater; where x or y is 15, the table of
42_alu.md R132 for each VF_ALIAS_ORDER (R127; 90_conflicts.md C1; D6, log 7). -/
def Obligations.SubtractWithFlag : Prop :=
  ∀ (s : State) (x y : Nibble) (f : Byte), f = b2n (decide ((s.readV y).toNat < (s.readV x).toNat)) →
    ∃ t, exec (.subReg x y) s = .next t ∧ OnlyRegs [x, 15#4] s t ∧
    (x ≠ 15#4 → t.readV 15#4 = f) ∧
    (x ≠ 15#4 → y ≠ 15#4 → t.readV x = s.readV x - s.readV y) ∧
    (x ≠ 15#4 → y = 15#4 → t.readV x =
      if s.config.vfAliasOrder = .asListed then s.readV x - f else s.readV x - s.readV y) ∧
    (x = 15#4 → y ≠ 15#4 → t.readV 15#4 = match s.config.vfAliasOrder with
      | .asListed => f - s.readV y
      | .snapshotResultLast => s.readV x - s.readV y
      | .snapshotFlagLast => f) ∧
    (x = 15#4 → y = 15#4 → t.readV 15#4 = 0#8)

/-- 8XY7 puts V[y] - V[x] modulo 256 in V[x], and in VF whether V[y] is strictly greater; where x or y is 15, the table of
42_alu.md R132 for each VF_ALIAS_ORDER (R128; D6, log 7). -/
def Obligations.ReverseSubtractWithFlag : Prop :=
  ∀ (s : State) (x y : Nibble) (f : Byte), f = b2n (decide ((s.readV x).toNat < (s.readV y).toNat)) →
    ∃ t, exec (.subnReg x y) s = .next t ∧ OnlyRegs [x, 15#4] s t ∧
    (x ≠ 15#4 → t.readV 15#4 = f) ∧
    (x ≠ 15#4 → y ≠ 15#4 → t.readV x = s.readV y - s.readV x) ∧
    (x ≠ 15#4 → y = 15#4 → t.readV x =
      if s.config.vfAliasOrder = .asListed then f - s.readV x else s.readV y - s.readV x) ∧
    (x = 15#4 → y ≠ 15#4 → t.readV 15#4 = match s.config.vfAliasOrder with
      | .asListed => s.readV y - f
      | .snapshotResultLast => s.readV y - s.readV x
      | .snapshotFlagLast => f) ∧
    (x = 15#4 → y = 15#4 → t.readV 15#4 = 0#8)

/-- 8XY6 and 8XYE shift V[x] by one, whatever y is, and put its old bit 0 in VF, for the left shift too; where x is 15, the
table of 42_alu.md R132 for each VF_ALIAS_ORDER (R129, R130, 30_encoding.md R74; D6, log 7, log 36). -/
def Obligations.ShiftsByOne : Prop :=
  ∀ (s : State) (x y : Nibble) (v : Nat), (s.readV x).toNat = v →
    (∃ t, exec (.shr x y) s = .next t ∧ OnlyRegs [x, 15#4] s t ∧
      (x ≠ 15#4 → (t.readV 15#4).toNat = v % 2 ∧ (t.readV x).toNat = v / 2) ∧
      (x = 15#4 → (t.readV 15#4).toNat = match s.config.vfAliasOrder with
        | .asListed => 0
        | .snapshotResultLast => v / 2
        | .snapshotFlagLast => v % 2)) ∧
    (∃ t, exec (.shl x y) s = .next t ∧ OnlyRegs [x, 15#4] s t ∧
      (x ≠ 15#4 → (t.readV 15#4).toNat = v % 2 ∧ (t.readV x).toNat = 2 * v % 256) ∧
      (x = 15#4 → (t.readV 15#4).toNat = match s.config.vfAliasOrder with
        | .asListed => 2 * (v % 2)
        | .snapshotResultLast => 2 * v % 256
        | .snapshotFlagLast => v % 2))

/-- VF_ALIAS_ORDER matters only to a flag-writing ALU instruction that names VF as x or y (as x, for the shifts): every
other instruction does the same under every order (42_alu.md R132, its last sentence). -/
def Obligations.AliasOrderMattersOnlyWhereVfIsNamed : Prop :=
  ∀ (i : Instr) (s : State) (o : VfAliasOrder),
    (∀ x y, (i = .addReg x y ∨ i = .subReg x y ∨ i = .subnReg x y) → x ≠ 15#4 ∧ y ≠ 15#4) →
    (∀ x y, (i = .shr x y ∨ i = .shl x y) → x ≠ 15#4) →
    exec i (s.withOrder o) = mapNext (·.withOrder o) (exec i s)

/-- CXNN puts the next free random byte AND nn in V[x], and the draw after it is another; with nn = 0 the result is 0
whatever the draw (42_alu.md R131; D7, log 8). -/
def Obligations.RandomByteIsMasked : Prop :=
  ∀ (s : State) (x : Nibble) (nn : Byte), ∃ t, exec (.rnd x nn) s = .next t ∧
    t.readV x = Config.randomByte s.draws &&& nn ∧ (nn = 0#8 → t.readV x = 0#8) ∧ t.draws = s.draws + 1 ∧
    Unchanged [.regs, .draws] s t ∧ SameRegsBut [x] s t

/-! ## The index register and memory -/

/-- 43_index_memory.md R150 and R151: ANNN sets I to nnn; FX1E adds V[x] to I modulo 2^16, with no flag and no fault;
nothing else changes. -/
def Obligations.IndexIsSetAndAdded : Prop :=
  DecodesTo 0xF000#16 0xA000#16 (fun w => .ldI (fieldNNN w)) ∧ DecodesTo 0xF0FF#16 0xF01E#16 (fun w => .addI (fieldX w)) ∧
  (∀ (s : State) (nnn : Addr12), ∃ t, exec (.ldI nnn) s = .next t ∧ t.i.toNat = nnn.toNat ∧ Unchanged [.index] s t) ∧
  (∀ (s : State) (x : Nibble), ∃ t, exec (.addI x) s = .next t ∧
    t.i.toNat = (s.i.toNat + (s.readV x).toNat) % 65536 ∧ Unchanged [.index] s t)

/-- FX29 sets I to V[x] * 5, not reduced, and nothing else (43_index_memory.md R152; no mask: D28, log 30). -/
def Obligations.FontAddressIsFiveTimesTheRegister : Prop :=
  ∀ (s : State) (x : Nibble), ∃ t, exec (.ldF x) s = .next t ∧ t.i.toNat = (s.readV x).toNat * 5 ∧ Unchanged [.index] s t

/-- FX33 stores the hundreds, tens and ones of V[x] at I, I+1 and I+2, and changes nothing else
(43_index_memory.md R153; I kept: D15, log 20). Memory is in its canonical form, which every step keeps. -/
def Obligations.DecimalDigitsAreStored : Prop :=
  ∀ (s : State) (x : Nibble), Memory.wf s.mem → s.i.toNat + 2 < 4096 → ∃ t, exec (.ldB x) s = .next t ∧
    (t.mem.read s.i.toNat).toNat = (s.readV x).toNat / 100 ∧
    (t.mem.read (s.i.toNat + 1)).toNat = (s.readV x).toNat / 10 % 10 ∧
    (t.mem.read (s.i.toNat + 2)).toNat = (s.readV x).toNat % 10 ∧
    SameBytesOutside s.i.toNat 3 s t ∧ Unchanged [.mem] s t

/-- FX55 stores V[0]..V[x] at I..I+x and changes nothing else (43_index_memory.md R155; I kept: D15, log 20). Memory is in
its canonical form, which every step keeps. -/
def Obligations.RegistersAreStored : Prop :=
  ∀ (s : State) (x : Nibble), Memory.wf s.mem → s.i.toNat + x.toNat < 4096 → ∃ t, exec (.ldMemVx x) s = .next t ∧
    (∀ r : Nibble, r.toNat ≤ x.toNat → t.mem.read (s.i.toNat + r.toNat) = s.readV r) ∧
    SameBytesOutside s.i.toNat (x.toNat + 1) s t ∧ Unchanged [.mem] s t

/-- FX65 loads V[0]..V[x] from I..I+x and changes nothing else (43_index_memory.md R156; I kept: D15, log 20). -/
def Obligations.RegistersAreLoaded : Prop :=
  ∀ (s : State) (x : Nibble), s.i.toNat + x.toNat < 4096 → ∃ t, exec (.ldVxMem x) s = .next t ∧
    (∀ r : Nibble, r.toNat ≤ x.toNat → t.readV r = s.mem.read (s.i.toNat + r.toNat)) ∧
    (∀ r : Nibble, x.toNat < r.toNat → t.readV r = s.readV r) ∧ Unchanged [.regs] s t

/-- 43_index_memory.md R154: DXYN, FX33, FX55 and FX65 fault exactly when a byte they would access lies past 0xFFF, with
the lowest such address; the fault writes nothing; an access of no bytes never faults. -/
def Obligations.IndexRelativeAccessIsChecked : Prop :=
  ∀ (i : Instr) (k : Nat) (s : State), indexBytes? i = some k →
    (0 < k → 4096 ≤ s.i.toNat + k - 1 → exec i s = .fault (.memoryOutOfRange (s.pc - 2#16) (encode i)
        (if 4096 ≤ s.i.toNat then s.i.toNat else 4096)) ∧ Unchanged [.status] s (s.leftBy (exec i s))) ∧
    (0 < k → s.i.toNat + k - 1 < 4096 → ∃ t, exec i s = .next t) ∧ (k = 0 → ∃ t, exec i s = .next t)

/-- Bytes stored by FX55 over a later instruction's word are what its fetch reads (20_memory.md R51, R62,
70_reset_and_hazards.md R247). -/
def Obligations.StoredBytesAreFetchedAsCode : Prop :=
  ∀ (s t u : State) (x : Nibble), Memory.wf s.mem → 1 ≤ x.toNat → exec (.ldMemVx x) s = .next t → u.mem = t.mem →
    u.pc = s.i → ∃ op, u.fetch = .ok op ∧ op.toNat = (s.readV 0#4).toNat * 256 + (s.readV 1#4).toNat

/-! ## The display -/

/-- 44_display.md R170: 00E0 clears every pixel and sets `clear_flag`, and nothing else changes. -/
def Obligations.ClearDisplayClearsEveryPixel : Prop :=
  DecodesTo 0xFFFF#16 0x00E0#16 (fun _ => .cls) ∧
  ∀ s : State, ∃ t, exec .cls s = .next t ∧ (∀ px py, t.disp.pixel px py = false) ∧ t.clearFlag = true ∧
    Unchanged [.disp, .clearFlag] s t

/-- DXYN inverts exactly the pixels under the sprite's set bits, each wrapping on its own, puts the collision in VF and
`display_flag`, and changes nothing else (44_display.md R171, R172; 90_conflicts.md C2). -/
def Obligations.DrawTogglesExactlyTheSprite : Prop :=
  ∀ (s : State) (x y n : Nibble), s.i.toNat + n.toNat ≤ 4096 ∨ n = 0 → ∃ t, exec (.drw x y n) s = .next t ∧
    (∀ px py, t.disp.pixel px py = (s.disp.pixel px py ^^
      spriteCovers s ((s.readV x).toNat % 64) ((s.readV y).toNat % 32) n.toNat px py)) ∧
    (t.readV 15#4 = 1#8 ↔ spriteCollides s ((s.readV x).toNat % 64) ((s.readV y).toNat % 32) n.toNat) ∧
    (t.readV 15#4 = 0#8 ∨ t.readV 15#4 = 1#8) ∧
    (t.displayFlag = true ↔ spriteCollides s ((s.readV x).toNat % 64) ((s.readV y).toNat % 32) n.toNat) ∧
    Unchanged [.disp, .displayFlag, .regs] s t ∧ SameRegsBut [15#4] s t

/-- Drawing the same sprite twice at the same place restores the buffer, and the second draw reports a collision exactly
when a pixel of the sprite was on after the first (44_display.md R171; 95_test_vectors.md E7). -/
def Obligations.DrawingTwiceRestoresTheDisplay : Prop :=
  ∀ (s t u : State) (x y n : Nibble), exec (.drw x y n) s = .next t → u.disp = t.disp → u.mem = s.mem → u.i = s.i →
    u.readV x = s.readV x → u.readV y = s.readV y → ∃ r, exec (.drw x y n) u = .next r ∧
      (∀ px py, r.disp.pixel px py = s.disp.pixel px py) ∧
      (r.readV 15#4 = 1#8 ↔ spriteCollides t ((s.readV x).toNat % 64) ((s.readV y).toNat % 32) n.toNat)

/-- 44_display.md R172: after DXYN `display_flag` is true exactly when VF is 1, which is exactly when the draw found a
collision; a draw that only turns pixels on leaves it false. -/
def Obligations.DisplayFlagIsTheCollision : Prop :=
  ∀ (s t : State) (x y n : Nibble), exec (.drw x y n) s = .next t →
    (t.displayFlag = true ↔ t.readV 15#4 = 1#8) ∧
    (t.displayFlag = true ↔ ∃ px py, s.disp.pixel px py = true ∧ t.disp.pixel px py = false) ∧
    ((∀ px py, s.disp.pixel px py = true → t.disp.pixel px py = true) → t.displayFlag = false)

/-! ## Keys and timers -/

/-- FX0A puts the lowest held key in V[x]; with none held it only sets `pc` back by 2 (45_keys_timers.md R183). -/
def Obligations.KeyWaitTakesTheLowestKey : Prop :=
  (∀ (s : State) (x : Nibble) (k : Nat) (h : k < 16), s.keys[k] = true → (∀ (j : Nat) (hj : j < k), s.keys[j] = false) →
    ∃ t, exec (.ldVxKey x) s = .next t ∧ (t.readV x).toNat = k ∧ OnlyRegs [x] s t) ∧
  (∀ (s : State) (x : Nibble), (∀ (j : Nat) (hj : j < 16), s.keys[j] = false) →
    ∃ t, exec (.ldVxKey x) s = .next t ∧ t.pc = s.pc - 2#16 ∧ Unchanged [.pc] s t)

/-- While no key is held, a tick on FX0A leaves the whole state unchanged (45_keys_timers.md R183, corner case 3). -/
def Obligations.KeyWaitIsAFixedPoint : Prop :=
  ∀ (s : State) (x : Nibble), s.status = .running → s.phase = .loaded → s.pc.toNat + 1 < 4096 →
    s.mem.readWord s.pc.toNat = encode (.ldVxKey x) → (∀ (j : Nat) (hj : j < 16), s.keys[j] = false) →
    perform .tick s = .next s

/-- FX07 copies DT to V[x]; FX15 copies V[x] to DT; FX18 copies V[x] to ST and emits nothing, even when it stops the timer;
nothing else changes (45_keys_timers.md R182, R184, R185; no event: D18, log 23). -/
def Obligations.TimersAreReadAndWritten : Prop :=
  ∀ (s : State) (x : Nibble),
    (∃ t, exec (.ldVxDt x) s = .next t ∧ t.readV x = s.dt ∧ OnlyRegs [x] s t) ∧
    (∃ t, exec (.ldDtVx x) s = .next t ∧ t.dt = s.readV x ∧ Unchanged [.delay] s t) ∧
    (∃ t, exec (.ldStVx x) s = .next t ∧ t.st = s.readV x ∧ Unchanged [.sound] s t)

/-- `tick_timers` decrements each timer that is above 0, emits SoundEnd exactly when ST steps from 1 to 0, changes nothing
else, and cannot fault (60_exceptions.md R216, R217; the event: D18, log 23; the refusals: D20, log 25). -/
def Obligations.TimerStepDecrementsOnce : Prop :=
  (∀ s : State, s.status = .running → s.phase = .loaded → ∃ t, perform .tickTimers s = .next t ∧
    t.dt.toNat = s.dt.toNat - 1 ∧ t.st.toNat = s.st.toNat - 1 ∧
    t.events = (if s.st = 1#8 then s.events ++ [.soundEnd] else s.events) ∧ Unchanged [.delay, .sound, .events] s t) ∧
  (∀ (s : State) (f : Fault), perform .tickTimers s ≠ .fault f)

/-- Timers never go below 0 however many timer steps follow, and the whole countdown of ST emits SoundEnd once, at its end
(10_state.md R31, 60_exceptions.md R216, R217; 95_test_vectors.md E9; D18, log 23). -/
def Obligations.TimersSaturateAtZero : Prop :=
  ∀ (s : State) (k : Nat), s.status = .running → s.phase = .loaded →
    let t := runOps (List.replicate k .tickTimers) s
    t.dt.toNat = s.dt.toNat - k ∧ t.st.toNat = s.st.toNat - k ∧
    t.events = (if 0 < s.st.toNat ∧ s.st.toNat ≤ k then s.events ++ [.soundEnd] else s.events)

/-! ## The host interface, boot and reset -/

/-- `key_set` writes one key and nothing else, and refuses a key outside 0..15 (60_exceptions.md R224; the refusals: D20,
log 25). -/
def Obligations.KeySetWritesOneKey : Prop :=
  (∀ (s : State) (k : Nat) (pressed : Bool) (h : k < 16), s.status = .running → s.phase = .loaded →
    ∃ t, perform (.keySet k pressed) s = .next t ∧ t.keys[k] = pressed ∧
      (∀ (j : Nat) (hj : j < 16), j ≠ k → t.keys[j] = s.keys[j]) ∧ Unchanged [.keys] s t) ∧
  (∀ (s : State) (k : Nat) (pressed : Bool), s.status = .running → s.phase = .loaded → 16 ≤ k →
    perform (.keySet k pressed) s = .refused .badKey)

/-- The host clears each dirty flag by its own operation, which changes nothing else, and reads both flags and every pixel,
at linear index `x + 64*y` (60_exceptions.md R223, R225, 10_state.md R32; the operations: D24, log 27). -/
def Obligations.HostReadsAndClearsTheDisplayState : Prop :=
  (∀ s : State, s.status = .running → s.phase = .loaded →
    (∃ t, perform .resetClearFlag s = .next t ∧ t.clearFlag = false ∧ Unchanged [.clearFlag] s t) ∧
    (∃ t, perform .resetDisplayFlag s = .next t ∧ t.displayFlag = false ∧ Unchanged [.displayFlag] s t)) ∧
  (∀ s : State, s.flagsView = (s.clearFlag, s.displayFlag)) ∧
  (∀ (s : State) (px : Fin 64) (py : Fin 32), s.displayView[px.val + 64 * py.val]? = some (s.disp.pixel px py))

/-- The launch state of a ROM: from creation with any parameters, `load_fonts` and `load_rom` leave the font at 0, the ROM at
0x200, 0 elsewhere, the boot done, and everything else as at creation (70_reset_and_hazards.md R241, R242, R244; the
creation values: D1-D4, log 1 to 5). -/
def Obligations.LaunchStateHoldsFontAndRom : Prop :=
  ∀ (c : Config) (rom : List Byte), rom.length ≤ 3584 →
    let t := runOps [.loadFonts, .loadRom rom] (State.created c)
    (∀ (a : Nat) (h : a < 80), t.mem.read a = c.fontTable[a]) ∧
    (∀ a, 80 ≤ a → a < 512 → t.mem.read a = 0#8) ∧
    (∀ (k : Nat) (h : k < rom.length), t.mem.read (512 + k) = rom[k]) ∧
    (∀ a, 512 + rom.length ≤ a → t.mem.read a = 0#8) ∧
    t.status = .running ∧ t.phase = .loaded ∧ Unchanged [.mem, .phase] (State.created c) t

/-- A ROM of more than 3584 bytes is a fault, recorded with no pc, no op and address 4096, and writes nothing
(60_exceptions.md R205, 70_reset_and_hazards.md R242; nothing written: D25, log 28). -/
def Obligations.OversizedRomIsAFault : Prop :=
  ∀ (s : State) (rom : List Byte), s.status = .running → s.phase = .fontsLoaded → 3584 < rom.length →
    ∃ f, perform (.loadRom rom) s = .fault f ∧ f.code = 5 ∧ f.pc? = none ∧ f.op? = none ∧ f.addr? = some 4096 ∧
      Unchanged [.status] s (s.leftBy (perform (.loadRom rom) s))

/-- The state at creation (10_state.md R40). Only the empty stack is the source's; the other values are the spec's own
choices (D1-D4, D8, D20; log 1 to 5). -/
def Obligations.CreationStateIsAsListed : Prop :=
  ∀ c : Config, (State.created c).sp = 0 ∧ (State.created c).pc = 0x200#16 ∧ (State.created c).i = 0#16 ∧
    (∀ r, (State.created c).readV r = 0#8) ∧ (∀ a, (State.created c).mem.read a = 0#8) ∧
    (∀ (k : Nat) (h : k < 16), (State.created c).stack[k] = 0#16 ∧ (State.created c).keys[k] = false) ∧
    (State.created c).dt = 0#8 ∧ (State.created c).st = 0#8 ∧ (∀ px py, (State.created c).disp.pixel px py = false) ∧
    (State.created c).clearFlag = false ∧ (State.created c).displayFlag = false ∧
    (State.created c).status = .running ∧ (State.created c).phase = .created

/-! ## The whole machine -/

/-- 10_state.md R25: which instructions write general registers, and which of them; no other instruction and no host
operation writes one. -/
def Obligations.OnlyListedInstructionsWriteRegisters : Prop :=
  (∀ (i : Instr) (s t : State) (r : Nibble), exec i s = .next t → t.readV r ≠ s.readV r →
    (∃ nn, i = .ldImm r nn) ∨ (∃ nn, i = .addImm r nn) ∨ (∃ y, i = .ldReg r y) ∨ (∃ y, i = .orReg r y) ∨
    (∃ y, i = .andReg r y) ∨ (∃ y, i = .xorReg r y) ∨ (∃ nn, i = .rnd r nn) ∨ i = .ldVxDt r ∨ i = .ldVxKey r ∨
    (∃ x, i = .ldVxMem x ∧ r.toNat ≤ x.toNat) ∨ (∃ x y, i = .addReg x y ∧ (r = x ∨ r = 15#4)) ∨
    (∃ x y, i = .subReg x y ∧ (r = x ∨ r = 15#4)) ∨ (∃ x y, i = .subnReg x y ∧ (r = x ∨ r = 15#4)) ∨
    (∃ x y, i = .shr x y ∧ (r = x ∨ r = 15#4)) ∨ (∃ x y, i = .shl x y ∧ (r = x ∨ r = 15#4)) ∨
    (∃ x y n, i = .drw x y n ∧ r = 15#4)) ∧
  (∀ (op : HostOp) (s t : State) (r : Nibble), op ≠ .tick → perform op s = .next t → t.readV r = s.readV r)

/-- I is written only by ANNN, FX1E and FX29, and read only by DXYN, FX1E, FX33, FX55 and FX65: ANNN and FX29 give the same
state whatever I held, and every other instruction outside those five does the same and keeps I (10_state.md R26). -/
def Obligations.IndexIsTouchedOnlyByItsInstructions : Prop :=
  (∀ (i : Instr) (s t : State), exec i s = .next t → t.i ≠ s.i →
    (∃ nnn, i = .ldI nnn) ∨ (∃ x, i = .addI x) ∨ (∃ x, i = .ldF x)) ∧
  (∀ (i : Instr) (s : State) (a : Word), indexBytes? i = none → (∀ nnn, i ≠ .ldI nnn) → (∀ x, i ≠ .addI x) →
    (∀ x, i ≠ .ldF x) → exec i (s.setI a) = mapNext (·.setI a) (exec i s)) ∧
  (∀ (s : State) (a : Word) (nnn : Addr12), exec (.ldI nnn) (s.setI a) = exec (.ldI nnn) s) ∧
  (∀ (s : State) (a : Word) (x : Nibble), exec (.ldF x) (s.setI a) = exec (.ldF x) s)

/-- After the fetch, `pc` is written only by 00EE, 1NNN, 2NNN, BNNN, a skip (by exactly 2) and FX0A (back by 2)
(10_state.md R28, 70_reset_and_hazards.md R252). -/
def Obligations.OnlyListedInstructionsWritePc : Prop :=
  ∀ (i : Instr) (s t : State), exec i s = .next t → t.pc ≠ s.pc →
    i = .ret ∨ (∃ nnn, i = .jp nnn ∨ i = .call nnn ∨ i = .jpV0 nnn) ∨ (∃ x, i = .ldVxKey x ∧ t.pc = s.pc - 2#16) ∨
    (t.pc = s.pc + 2#16 ∧ ((∃ x nn, i = .seImm x nn ∨ i = .sneImm x nn) ∨ (∃ x y, i = .seReg x y ∨ i = .sneReg x y) ∨
      (∃ x, i = .skp x ∨ i = .sknp x)))

/-- Which instructions write each other piece of the state: memory by FX33 and FX55 (20_memory.md R50), the stack by 00EE and
2NNN, DT by FX15, ST by FX18, the display by 00E0 and DXYN, `clear_flag` by 00E0, `display_flag` by DXYN (10_state.md R29,
R31, R32, R34), the events by an unimplemented opcode (40_cycle.md R95, 60_exceptions.md R217, R222; SoundEnd by no
instruction: D18, log 23), the draws by CXNN (40_cycle.md R94; the counter is the model's own, log 8); and a completed
instruction writes neither the keys (R33) nor the status and the phase (R20, R36). That none writes the parameters or the
host's schedule is the model's own choice, not a rule of the spec (log 6, 7, 9). -/
def Obligations.EachPieceHasItsWriters : Prop :=
  ∀ (i : Instr) (s t : State), exec i s = .next t →
    ((∀ x, i ≠ .ldB x) → (∀ x, i ≠ .ldMemVx x) → Part.mem.same s t) ∧
    (i ≠ .ret → (∀ nnn, i ≠ .call nnn) → Part.stack.same s t) ∧
    ((∀ x, i ≠ .ldDtVx x) → Part.delay.same s t) ∧ ((∀ x, i ≠ .ldStVx x) → Part.sound.same s t) ∧
    (i ≠ .cls → (∀ x y n, i ≠ .drw x y n) → Part.disp.same s t) ∧ (i ≠ .cls → Part.clearFlag.same s t) ∧
    ((∀ x y n, i ≠ .drw x y n) → Part.displayFlag.same s t) ∧
    ((∀ op, i ≠ .unimplemented op) → Part.events.same s t) ∧ ((∀ x nn, i ≠ .rnd x nn) → Part.draws.same s t) ∧
    Part.keys.same s t ∧ Part.status.same s t ∧ Part.phase.same s t ∧ Part.config.same s t ∧ Part.schedule.same s t

/-- Only EX9E, EXA1 and FX0A read the keys, and no instruction reads ST or a dirty flag: an instruction that neither reads
nor writes one of them does the same whatever it holds (40_cycle.md R94, 10_state.md R31, R38, 60_exceptions.md R225). -/
def Obligations.UnreadStateDoesNotMatter : Prop :=
  (∀ (i : Instr) (s : State) (k : Vector Bool 16), (∀ x, i ≠ .skp x) → (∀ x, i ≠ .sknp x) → (∀ x, i ≠ .ldVxKey x) →
    exec i (s.setKeys k) = mapNext (·.setKeys k) (exec i s)) ∧
  (∀ (i : Instr) (s : State) (b : Byte), (∀ x, i ≠ .ldStVx x) → exec i (s.setSt b) = mapNext (·.setSt b) (exec i s)) ∧
  (∀ (i : Instr) (s : State) (b : Bool), i ≠ .cls → exec i (s.setClearFlag b) = mapNext (·.setClearFlag b) (exec i s)) ∧
  (∀ (i : Instr) (s : State) (b : Bool), (∀ x y n, i ≠ .drw x y n) →
    exec i (s.setDisplayFlag b) = mapNext (·.setDisplayFlag b) (exec i s))

/-- Every step keeps the invariant: `pc` at most 0x10FE and every live return address at most 0x1000 (10_state.md R39), and
memory in its canonical form inside the address space. -/
def Obligations.StepKeepsTheInvariant : Prop := ∀ s t : State, Inv s → step s = .next t → Inv t

/-- The state at creation meets the invariant. -/
def Obligations.CreationMeetsTheInvariant : Prop := ∀ c : Config, Inv (State.created c)

/-- A halted core, a self-jump at `pc`, is a fixed point of the tick (70_reset_and_hazards.md R263; the definition: D22,
log 26). -/
def Obligations.HaltedCoreIsAFixedPoint : Prop := ∀ s : State, Halted s → perform .tick s = .next s
end

