-- ==== Sys2Proof/Laws/State.lean ====
section
/-! SUPPORT. One lemma for each field and each update of the state, true by definition, so that no proof unfolds an
update. -/

namespace Sys2Proof.Machine

variable (s : State)

@[simp] theorem State.writeV_mem (x : Nibble) (b : Byte) : (s.writeV x b).mem = s.mem := rfl
@[simp] theorem State.writeV_v (x : Nibble) (b : Byte) : (s.writeV x b).v = s.v.set x.toNat b x.isLt := rfl
@[simp] theorem State.writeV_i (x : Nibble) (b : Byte) : (s.writeV x b).i = s.i := rfl
@[simp] theorem State.writeV_pc (x : Nibble) (b : Byte) : (s.writeV x b).pc = s.pc := rfl
@[simp] theorem State.writeV_stack (x : Nibble) (b : Byte) : (s.writeV x b).stack = s.stack := rfl
@[simp] theorem State.writeV_sp (x : Nibble) (b : Byte) : (s.writeV x b).sp = s.sp := rfl
@[simp] theorem State.writeV_dt (x : Nibble) (b : Byte) : (s.writeV x b).dt = s.dt := rfl
@[simp] theorem State.writeV_st (x : Nibble) (b : Byte) : (s.writeV x b).st = s.st := rfl
@[simp] theorem State.writeV_disp (x : Nibble) (b : Byte) : (s.writeV x b).disp = s.disp := rfl
@[simp] theorem State.writeV_keys (x : Nibble) (b : Byte) : (s.writeV x b).keys = s.keys := rfl
@[simp] theorem State.writeV_clearFlag (x : Nibble) (b : Byte) : (s.writeV x b).clearFlag = s.clearFlag := rfl
@[simp] theorem State.writeV_displayFlag (x : Nibble) (b : Byte) : (s.writeV x b).displayFlag = s.displayFlag := rfl
@[simp] theorem State.writeV_status (x : Nibble) (b : Byte) : (s.writeV x b).status = s.status := rfl
@[simp] theorem State.writeV_phase (x : Nibble) (b : Byte) : (s.writeV x b).phase = s.phase := rfl
@[simp] theorem State.writeV_config (x : Nibble) (b : Byte) : (s.writeV x b).config = s.config := rfl
@[simp] theorem State.writeV_events (x : Nibble) (b : Byte) : (s.writeV x b).events = s.events := rfl
@[simp] theorem State.writeV_draws (x : Nibble) (b : Byte) : (s.writeV x b).draws = s.draws := rfl
@[simp] theorem State.writeV_schedule (x : Nibble) (b : Byte) : (s.writeV x b).schedule = s.schedule := rfl
@[simp] theorem State.writeV_keyHeld (x : Nibble) (b : Byte) (key : Nat) : (s.writeV x b).keyHeld key = s.keyHeld key := rfl

@[simp] theorem State.setPc_mem (a : Word) : (s.setPc a).mem = s.mem := rfl
@[simp] theorem State.setPc_v (a : Word) : (s.setPc a).v = s.v := rfl
@[simp] theorem State.setPc_i (a : Word) : (s.setPc a).i = s.i := rfl
@[simp] theorem State.setPc_pc (a : Word) : (s.setPc a).pc = a := rfl
@[simp] theorem State.setPc_stack (a : Word) : (s.setPc a).stack = s.stack := rfl
@[simp] theorem State.setPc_sp (a : Word) : (s.setPc a).sp = s.sp := rfl
@[simp] theorem State.setPc_dt (a : Word) : (s.setPc a).dt = s.dt := rfl
@[simp] theorem State.setPc_st (a : Word) : (s.setPc a).st = s.st := rfl
@[simp] theorem State.setPc_disp (a : Word) : (s.setPc a).disp = s.disp := rfl
@[simp] theorem State.setPc_keys (a : Word) : (s.setPc a).keys = s.keys := rfl
@[simp] theorem State.setPc_clearFlag (a : Word) : (s.setPc a).clearFlag = s.clearFlag := rfl
@[simp] theorem State.setPc_displayFlag (a : Word) : (s.setPc a).displayFlag = s.displayFlag := rfl
@[simp] theorem State.setPc_status (a : Word) : (s.setPc a).status = s.status := rfl
@[simp] theorem State.setPc_phase (a : Word) : (s.setPc a).phase = s.phase := rfl
@[simp] theorem State.setPc_config (a : Word) : (s.setPc a).config = s.config := rfl
@[simp] theorem State.setPc_events (a : Word) : (s.setPc a).events = s.events := rfl
@[simp] theorem State.setPc_draws (a : Word) : (s.setPc a).draws = s.draws := rfl
@[simp] theorem State.setPc_schedule (a : Word) : (s.setPc a).schedule = s.schedule := rfl
@[simp] theorem State.setPc_readV (a : Word) (r : Nibble) : (s.setPc a).readV r = s.readV r := rfl
@[simp] theorem State.setPc_keyHeld (a : Word) (key : Nat) : (s.setPc a).keyHeld key = s.keyHeld key := rfl

@[simp] theorem State.setI_mem (a : Word) : (s.setI a).mem = s.mem := rfl
@[simp] theorem State.setI_v (a : Word) : (s.setI a).v = s.v := rfl
@[simp] theorem State.setI_i (a : Word) : (s.setI a).i = a := rfl
@[simp] theorem State.setI_pc (a : Word) : (s.setI a).pc = s.pc := rfl
@[simp] theorem State.setI_stack (a : Word) : (s.setI a).stack = s.stack := rfl
@[simp] theorem State.setI_sp (a : Word) : (s.setI a).sp = s.sp := rfl
@[simp] theorem State.setI_dt (a : Word) : (s.setI a).dt = s.dt := rfl
@[simp] theorem State.setI_st (a : Word) : (s.setI a).st = s.st := rfl
@[simp] theorem State.setI_disp (a : Word) : (s.setI a).disp = s.disp := rfl
@[simp] theorem State.setI_keys (a : Word) : (s.setI a).keys = s.keys := rfl
@[simp] theorem State.setI_clearFlag (a : Word) : (s.setI a).clearFlag = s.clearFlag := rfl
@[simp] theorem State.setI_displayFlag (a : Word) : (s.setI a).displayFlag = s.displayFlag := rfl
@[simp] theorem State.setI_status (a : Word) : (s.setI a).status = s.status := rfl
@[simp] theorem State.setI_phase (a : Word) : (s.setI a).phase = s.phase := rfl
@[simp] theorem State.setI_config (a : Word) : (s.setI a).config = s.config := rfl
@[simp] theorem State.setI_events (a : Word) : (s.setI a).events = s.events := rfl
@[simp] theorem State.setI_draws (a : Word) : (s.setI a).draws = s.draws := rfl
@[simp] theorem State.setI_schedule (a : Word) : (s.setI a).schedule = s.schedule := rfl
@[simp] theorem State.setI_readV (a : Word) (r : Nibble) : (s.setI a).readV r = s.readV r := rfl
@[simp] theorem State.setI_keyHeld (a : Word) (key : Nat) : (s.setI a).keyHeld key = s.keyHeld key := rfl

@[simp] theorem State.setDt_mem (b : Byte) : (s.setDt b).mem = s.mem := rfl
@[simp] theorem State.setDt_v (b : Byte) : (s.setDt b).v = s.v := rfl
@[simp] theorem State.setDt_i (b : Byte) : (s.setDt b).i = s.i := rfl
@[simp] theorem State.setDt_pc (b : Byte) : (s.setDt b).pc = s.pc := rfl
@[simp] theorem State.setDt_stack (b : Byte) : (s.setDt b).stack = s.stack := rfl
@[simp] theorem State.setDt_sp (b : Byte) : (s.setDt b).sp = s.sp := rfl
@[simp] theorem State.setDt_dt (b : Byte) : (s.setDt b).dt = b := rfl
@[simp] theorem State.setDt_st (b : Byte) : (s.setDt b).st = s.st := rfl
@[simp] theorem State.setDt_disp (b : Byte) : (s.setDt b).disp = s.disp := rfl
@[simp] theorem State.setDt_keys (b : Byte) : (s.setDt b).keys = s.keys := rfl
@[simp] theorem State.setDt_clearFlag (b : Byte) : (s.setDt b).clearFlag = s.clearFlag := rfl
@[simp] theorem State.setDt_displayFlag (b : Byte) : (s.setDt b).displayFlag = s.displayFlag := rfl
@[simp] theorem State.setDt_status (b : Byte) : (s.setDt b).status = s.status := rfl
@[simp] theorem State.setDt_phase (b : Byte) : (s.setDt b).phase = s.phase := rfl
@[simp] theorem State.setDt_config (b : Byte) : (s.setDt b).config = s.config := rfl
@[simp] theorem State.setDt_events (b : Byte) : (s.setDt b).events = s.events := rfl
@[simp] theorem State.setDt_draws (b : Byte) : (s.setDt b).draws = s.draws := rfl
@[simp] theorem State.setDt_schedule (b : Byte) : (s.setDt b).schedule = s.schedule := rfl
@[simp] theorem State.setDt_readV (b : Byte) (r : Nibble) : (s.setDt b).readV r = s.readV r := rfl
@[simp] theorem State.setDt_keyHeld (b : Byte) (key : Nat) : (s.setDt b).keyHeld key = s.keyHeld key := rfl

@[simp] theorem State.setSt_mem (b : Byte) : (s.setSt b).mem = s.mem := rfl
@[simp] theorem State.setSt_v (b : Byte) : (s.setSt b).v = s.v := rfl
@[simp] theorem State.setSt_i (b : Byte) : (s.setSt b).i = s.i := rfl
@[simp] theorem State.setSt_pc (b : Byte) : (s.setSt b).pc = s.pc := rfl
@[simp] theorem State.setSt_stack (b : Byte) : (s.setSt b).stack = s.stack := rfl
@[simp] theorem State.setSt_sp (b : Byte) : (s.setSt b).sp = s.sp := rfl
@[simp] theorem State.setSt_dt (b : Byte) : (s.setSt b).dt = s.dt := rfl
@[simp] theorem State.setSt_st (b : Byte) : (s.setSt b).st = b := rfl
@[simp] theorem State.setSt_disp (b : Byte) : (s.setSt b).disp = s.disp := rfl
@[simp] theorem State.setSt_keys (b : Byte) : (s.setSt b).keys = s.keys := rfl
@[simp] theorem State.setSt_clearFlag (b : Byte) : (s.setSt b).clearFlag = s.clearFlag := rfl
@[simp] theorem State.setSt_displayFlag (b : Byte) : (s.setSt b).displayFlag = s.displayFlag := rfl
@[simp] theorem State.setSt_status (b : Byte) : (s.setSt b).status = s.status := rfl
@[simp] theorem State.setSt_phase (b : Byte) : (s.setSt b).phase = s.phase := rfl
@[simp] theorem State.setSt_config (b : Byte) : (s.setSt b).config = s.config := rfl
@[simp] theorem State.setSt_events (b : Byte) : (s.setSt b).events = s.events := rfl
@[simp] theorem State.setSt_draws (b : Byte) : (s.setSt b).draws = s.draws := rfl
@[simp] theorem State.setSt_schedule (b : Byte) : (s.setSt b).schedule = s.schedule := rfl
@[simp] theorem State.setSt_readV (b : Byte) (r : Nibble) : (s.setSt b).readV r = s.readV r := rfl
@[simp] theorem State.setSt_keyHeld (b : Byte) (key : Nat) : (s.setSt b).keyHeld key = s.keyHeld key := rfl

@[simp] theorem State.setMem_mem (m : Memory) : (s.setMem m).mem = m := rfl
@[simp] theorem State.setMem_v (m : Memory) : (s.setMem m).v = s.v := rfl
@[simp] theorem State.setMem_i (m : Memory) : (s.setMem m).i = s.i := rfl
@[simp] theorem State.setMem_pc (m : Memory) : (s.setMem m).pc = s.pc := rfl
@[simp] theorem State.setMem_stack (m : Memory) : (s.setMem m).stack = s.stack := rfl
@[simp] theorem State.setMem_sp (m : Memory) : (s.setMem m).sp = s.sp := rfl
@[simp] theorem State.setMem_dt (m : Memory) : (s.setMem m).dt = s.dt := rfl
@[simp] theorem State.setMem_st (m : Memory) : (s.setMem m).st = s.st := rfl
@[simp] theorem State.setMem_disp (m : Memory) : (s.setMem m).disp = s.disp := rfl
@[simp] theorem State.setMem_keys (m : Memory) : (s.setMem m).keys = s.keys := rfl
@[simp] theorem State.setMem_clearFlag (m : Memory) : (s.setMem m).clearFlag = s.clearFlag := rfl
@[simp] theorem State.setMem_displayFlag (m : Memory) : (s.setMem m).displayFlag = s.displayFlag := rfl
@[simp] theorem State.setMem_status (m : Memory) : (s.setMem m).status = s.status := rfl
@[simp] theorem State.setMem_phase (m : Memory) : (s.setMem m).phase = s.phase := rfl
@[simp] theorem State.setMem_config (m : Memory) : (s.setMem m).config = s.config := rfl
@[simp] theorem State.setMem_events (m : Memory) : (s.setMem m).events = s.events := rfl
@[simp] theorem State.setMem_draws (m : Memory) : (s.setMem m).draws = s.draws := rfl
@[simp] theorem State.setMem_schedule (m : Memory) : (s.setMem m).schedule = s.schedule := rfl
@[simp] theorem State.setMem_readV (m : Memory) (r : Nibble) : (s.setMem m).readV r = s.readV r := rfl
@[simp] theorem State.setMem_keyHeld (m : Memory) (key : Nat) : (s.setMem m).keyHeld key = s.keyHeld key := rfl

@[simp] theorem State.setDisp_mem (d : Display) : (s.setDisp d).mem = s.mem := rfl
@[simp] theorem State.setDisp_v (d : Display) : (s.setDisp d).v = s.v := rfl
@[simp] theorem State.setDisp_i (d : Display) : (s.setDisp d).i = s.i := rfl
@[simp] theorem State.setDisp_pc (d : Display) : (s.setDisp d).pc = s.pc := rfl
@[simp] theorem State.setDisp_stack (d : Display) : (s.setDisp d).stack = s.stack := rfl
@[simp] theorem State.setDisp_sp (d : Display) : (s.setDisp d).sp = s.sp := rfl
@[simp] theorem State.setDisp_dt (d : Display) : (s.setDisp d).dt = s.dt := rfl
@[simp] theorem State.setDisp_st (d : Display) : (s.setDisp d).st = s.st := rfl
@[simp] theorem State.setDisp_disp (d : Display) : (s.setDisp d).disp = d := rfl
@[simp] theorem State.setDisp_keys (d : Display) : (s.setDisp d).keys = s.keys := rfl
@[simp] theorem State.setDisp_clearFlag (d : Display) : (s.setDisp d).clearFlag = s.clearFlag := rfl
@[simp] theorem State.setDisp_displayFlag (d : Display) : (s.setDisp d).displayFlag = s.displayFlag := rfl
@[simp] theorem State.setDisp_status (d : Display) : (s.setDisp d).status = s.status := rfl
@[simp] theorem State.setDisp_phase (d : Display) : (s.setDisp d).phase = s.phase := rfl
@[simp] theorem State.setDisp_config (d : Display) : (s.setDisp d).config = s.config := rfl
@[simp] theorem State.setDisp_events (d : Display) : (s.setDisp d).events = s.events := rfl
@[simp] theorem State.setDisp_draws (d : Display) : (s.setDisp d).draws = s.draws := rfl
@[simp] theorem State.setDisp_schedule (d : Display) : (s.setDisp d).schedule = s.schedule := rfl
@[simp] theorem State.setDisp_readV (d : Display) (r : Nibble) : (s.setDisp d).readV r = s.readV r := rfl
@[simp] theorem State.setDisp_keyHeld (d : Display) (key : Nat) : (s.setDisp d).keyHeld key = s.keyHeld key := rfl

@[simp] theorem State.setClearFlag_mem (b : Bool) : (s.setClearFlag b).mem = s.mem := rfl
@[simp] theorem State.setClearFlag_v (b : Bool) : (s.setClearFlag b).v = s.v := rfl
@[simp] theorem State.setClearFlag_i (b : Bool) : (s.setClearFlag b).i = s.i := rfl
@[simp] theorem State.setClearFlag_pc (b : Bool) : (s.setClearFlag b).pc = s.pc := rfl
@[simp] theorem State.setClearFlag_stack (b : Bool) : (s.setClearFlag b).stack = s.stack := rfl
@[simp] theorem State.setClearFlag_sp (b : Bool) : (s.setClearFlag b).sp = s.sp := rfl
@[simp] theorem State.setClearFlag_dt (b : Bool) : (s.setClearFlag b).dt = s.dt := rfl
@[simp] theorem State.setClearFlag_st (b : Bool) : (s.setClearFlag b).st = s.st := rfl
@[simp] theorem State.setClearFlag_disp (b : Bool) : (s.setClearFlag b).disp = s.disp := rfl
@[simp] theorem State.setClearFlag_keys (b : Bool) : (s.setClearFlag b).keys = s.keys := rfl
@[simp] theorem State.setClearFlag_clearFlag (b : Bool) : (s.setClearFlag b).clearFlag = b := rfl
@[simp] theorem State.setClearFlag_displayFlag (b : Bool) : (s.setClearFlag b).displayFlag = s.displayFlag := rfl
@[simp] theorem State.setClearFlag_status (b : Bool) : (s.setClearFlag b).status = s.status := rfl
@[simp] theorem State.setClearFlag_phase (b : Bool) : (s.setClearFlag b).phase = s.phase := rfl
@[simp] theorem State.setClearFlag_config (b : Bool) : (s.setClearFlag b).config = s.config := rfl
@[simp] theorem State.setClearFlag_events (b : Bool) : (s.setClearFlag b).events = s.events := rfl
@[simp] theorem State.setClearFlag_draws (b : Bool) : (s.setClearFlag b).draws = s.draws := rfl
@[simp] theorem State.setClearFlag_schedule (b : Bool) : (s.setClearFlag b).schedule = s.schedule := rfl
@[simp] theorem State.setClearFlag_readV (b : Bool) (r : Nibble) : (s.setClearFlag b).readV r = s.readV r := rfl
@[simp] theorem State.setClearFlag_keyHeld (b : Bool) (key : Nat) : (s.setClearFlag b).keyHeld key = s.keyHeld key := rfl

@[simp] theorem State.setDisplayFlag_mem (b : Bool) : (s.setDisplayFlag b).mem = s.mem := rfl
@[simp] theorem State.setDisplayFlag_v (b : Bool) : (s.setDisplayFlag b).v = s.v := rfl
@[simp] theorem State.setDisplayFlag_i (b : Bool) : (s.setDisplayFlag b).i = s.i := rfl
@[simp] theorem State.setDisplayFlag_pc (b : Bool) : (s.setDisplayFlag b).pc = s.pc := rfl
@[simp] theorem State.setDisplayFlag_stack (b : Bool) : (s.setDisplayFlag b).stack = s.stack := rfl
@[simp] theorem State.setDisplayFlag_sp (b : Bool) : (s.setDisplayFlag b).sp = s.sp := rfl
@[simp] theorem State.setDisplayFlag_dt (b : Bool) : (s.setDisplayFlag b).dt = s.dt := rfl
@[simp] theorem State.setDisplayFlag_st (b : Bool) : (s.setDisplayFlag b).st = s.st := rfl
@[simp] theorem State.setDisplayFlag_disp (b : Bool) : (s.setDisplayFlag b).disp = s.disp := rfl
@[simp] theorem State.setDisplayFlag_keys (b : Bool) : (s.setDisplayFlag b).keys = s.keys := rfl
@[simp] theorem State.setDisplayFlag_clearFlag (b : Bool) : (s.setDisplayFlag b).clearFlag = s.clearFlag := rfl
@[simp] theorem State.setDisplayFlag_displayFlag (b : Bool) : (s.setDisplayFlag b).displayFlag = b := rfl
@[simp] theorem State.setDisplayFlag_status (b : Bool) : (s.setDisplayFlag b).status = s.status := rfl
@[simp] theorem State.setDisplayFlag_phase (b : Bool) : (s.setDisplayFlag b).phase = s.phase := rfl
@[simp] theorem State.setDisplayFlag_config (b : Bool) : (s.setDisplayFlag b).config = s.config := rfl
@[simp] theorem State.setDisplayFlag_events (b : Bool) : (s.setDisplayFlag b).events = s.events := rfl
@[simp] theorem State.setDisplayFlag_draws (b : Bool) : (s.setDisplayFlag b).draws = s.draws := rfl
@[simp] theorem State.setDisplayFlag_schedule (b : Bool) : (s.setDisplayFlag b).schedule = s.schedule := rfl
@[simp] theorem State.setDisplayFlag_readV (b : Bool) (r : Nibble) : (s.setDisplayFlag b).readV r = s.readV r := rfl
@[simp] theorem State.setDisplayFlag_keyHeld (b : Bool) (key : Nat) : (s.setDisplayFlag b).keyHeld key = s.keyHeld key := rfl

@[simp] theorem State.setStack_mem (k : Vector Word 16) (n : Fin 17) : (s.setStack k n).mem = s.mem := rfl
@[simp] theorem State.setStack_v (k : Vector Word 16) (n : Fin 17) : (s.setStack k n).v = s.v := rfl
@[simp] theorem State.setStack_i (k : Vector Word 16) (n : Fin 17) : (s.setStack k n).i = s.i := rfl
@[simp] theorem State.setStack_pc (k : Vector Word 16) (n : Fin 17) : (s.setStack k n).pc = s.pc := rfl
@[simp] theorem State.setStack_stack (k : Vector Word 16) (n : Fin 17) : (s.setStack k n).stack = k := rfl
@[simp] theorem State.setStack_sp (k : Vector Word 16) (n : Fin 17) : (s.setStack k n).sp = n := rfl
@[simp] theorem State.setStack_dt (k : Vector Word 16) (n : Fin 17) : (s.setStack k n).dt = s.dt := rfl
@[simp] theorem State.setStack_st (k : Vector Word 16) (n : Fin 17) : (s.setStack k n).st = s.st := rfl
@[simp] theorem State.setStack_disp (k : Vector Word 16) (n : Fin 17) : (s.setStack k n).disp = s.disp := rfl
@[simp] theorem State.setStack_keys (k : Vector Word 16) (n : Fin 17) : (s.setStack k n).keys = s.keys := rfl
@[simp] theorem State.setStack_clearFlag (k : Vector Word 16) (n : Fin 17) : (s.setStack k n).clearFlag = s.clearFlag := rfl
@[simp] theorem State.setStack_displayFlag (k : Vector Word 16) (n : Fin 17) : (s.setStack k n).displayFlag = s.displayFlag := rfl
@[simp] theorem State.setStack_status (k : Vector Word 16) (n : Fin 17) : (s.setStack k n).status = s.status := rfl
@[simp] theorem State.setStack_phase (k : Vector Word 16) (n : Fin 17) : (s.setStack k n).phase = s.phase := rfl
@[simp] theorem State.setStack_config (k : Vector Word 16) (n : Fin 17) : (s.setStack k n).config = s.config := rfl
@[simp] theorem State.setStack_events (k : Vector Word 16) (n : Fin 17) : (s.setStack k n).events = s.events := rfl
@[simp] theorem State.setStack_draws (k : Vector Word 16) (n : Fin 17) : (s.setStack k n).draws = s.draws := rfl
@[simp] theorem State.setStack_schedule (k : Vector Word 16) (n : Fin 17) : (s.setStack k n).schedule = s.schedule := rfl
@[simp] theorem State.setStack_readV (k : Vector Word 16) (n : Fin 17) (r : Nibble) : (s.setStack k n).readV r = s.readV r := rfl
@[simp] theorem State.setStack_keyHeld (k : Vector Word 16) (n : Fin 17) (key : Nat) : (s.setStack k n).keyHeld key = s.keyHeld key := rfl

@[simp] theorem State.setKeys_mem (k : Vector Bool 16) : (s.setKeys k).mem = s.mem := rfl
@[simp] theorem State.setKeys_v (k : Vector Bool 16) : (s.setKeys k).v = s.v := rfl
@[simp] theorem State.setKeys_i (k : Vector Bool 16) : (s.setKeys k).i = s.i := rfl
@[simp] theorem State.setKeys_pc (k : Vector Bool 16) : (s.setKeys k).pc = s.pc := rfl
@[simp] theorem State.setKeys_stack (k : Vector Bool 16) : (s.setKeys k).stack = s.stack := rfl
@[simp] theorem State.setKeys_sp (k : Vector Bool 16) : (s.setKeys k).sp = s.sp := rfl
@[simp] theorem State.setKeys_dt (k : Vector Bool 16) : (s.setKeys k).dt = s.dt := rfl
@[simp] theorem State.setKeys_st (k : Vector Bool 16) : (s.setKeys k).st = s.st := rfl
@[simp] theorem State.setKeys_disp (k : Vector Bool 16) : (s.setKeys k).disp = s.disp := rfl
@[simp] theorem State.setKeys_keys (k : Vector Bool 16) : (s.setKeys k).keys = k := rfl
@[simp] theorem State.setKeys_clearFlag (k : Vector Bool 16) : (s.setKeys k).clearFlag = s.clearFlag := rfl
@[simp] theorem State.setKeys_displayFlag (k : Vector Bool 16) : (s.setKeys k).displayFlag = s.displayFlag := rfl
@[simp] theorem State.setKeys_status (k : Vector Bool 16) : (s.setKeys k).status = s.status := rfl
@[simp] theorem State.setKeys_phase (k : Vector Bool 16) : (s.setKeys k).phase = s.phase := rfl
@[simp] theorem State.setKeys_config (k : Vector Bool 16) : (s.setKeys k).config = s.config := rfl
@[simp] theorem State.setKeys_events (k : Vector Bool 16) : (s.setKeys k).events = s.events := rfl
@[simp] theorem State.setKeys_draws (k : Vector Bool 16) : (s.setKeys k).draws = s.draws := rfl
@[simp] theorem State.setKeys_schedule (k : Vector Bool 16) : (s.setKeys k).schedule = s.schedule := rfl
@[simp] theorem State.setKeys_readV (k : Vector Bool 16) (r : Nibble) : (s.setKeys k).readV r = s.readV r := rfl

@[simp] theorem State.setStatus_mem (u : Status) : (s.setStatus u).mem = s.mem := rfl
@[simp] theorem State.setStatus_v (u : Status) : (s.setStatus u).v = s.v := rfl
@[simp] theorem State.setStatus_i (u : Status) : (s.setStatus u).i = s.i := rfl
@[simp] theorem State.setStatus_pc (u : Status) : (s.setStatus u).pc = s.pc := rfl
@[simp] theorem State.setStatus_stack (u : Status) : (s.setStatus u).stack = s.stack := rfl
@[simp] theorem State.setStatus_sp (u : Status) : (s.setStatus u).sp = s.sp := rfl
@[simp] theorem State.setStatus_dt (u : Status) : (s.setStatus u).dt = s.dt := rfl
@[simp] theorem State.setStatus_st (u : Status) : (s.setStatus u).st = s.st := rfl
@[simp] theorem State.setStatus_disp (u : Status) : (s.setStatus u).disp = s.disp := rfl
@[simp] theorem State.setStatus_keys (u : Status) : (s.setStatus u).keys = s.keys := rfl
@[simp] theorem State.setStatus_clearFlag (u : Status) : (s.setStatus u).clearFlag = s.clearFlag := rfl
@[simp] theorem State.setStatus_displayFlag (u : Status) : (s.setStatus u).displayFlag = s.displayFlag := rfl
@[simp] theorem State.setStatus_status (u : Status) : (s.setStatus u).status = u := rfl
@[simp] theorem State.setStatus_phase (u : Status) : (s.setStatus u).phase = s.phase := rfl
@[simp] theorem State.setStatus_config (u : Status) : (s.setStatus u).config = s.config := rfl
@[simp] theorem State.setStatus_events (u : Status) : (s.setStatus u).events = s.events := rfl
@[simp] theorem State.setStatus_draws (u : Status) : (s.setStatus u).draws = s.draws := rfl
@[simp] theorem State.setStatus_schedule (u : Status) : (s.setStatus u).schedule = s.schedule := rfl
@[simp] theorem State.setStatus_readV (u : Status) (r : Nibble) : (s.setStatus u).readV r = s.readV r := rfl
@[simp] theorem State.setStatus_keyHeld (u : Status) (key : Nat) : (s.setStatus u).keyHeld key = s.keyHeld key := rfl

@[simp] theorem State.setPhase_mem (p : Phase) : (s.setPhase p).mem = s.mem := rfl
@[simp] theorem State.setPhase_v (p : Phase) : (s.setPhase p).v = s.v := rfl
@[simp] theorem State.setPhase_i (p : Phase) : (s.setPhase p).i = s.i := rfl
@[simp] theorem State.setPhase_pc (p : Phase) : (s.setPhase p).pc = s.pc := rfl
@[simp] theorem State.setPhase_stack (p : Phase) : (s.setPhase p).stack = s.stack := rfl
@[simp] theorem State.setPhase_sp (p : Phase) : (s.setPhase p).sp = s.sp := rfl
@[simp] theorem State.setPhase_dt (p : Phase) : (s.setPhase p).dt = s.dt := rfl
@[simp] theorem State.setPhase_st (p : Phase) : (s.setPhase p).st = s.st := rfl
@[simp] theorem State.setPhase_disp (p : Phase) : (s.setPhase p).disp = s.disp := rfl
@[simp] theorem State.setPhase_keys (p : Phase) : (s.setPhase p).keys = s.keys := rfl
@[simp] theorem State.setPhase_clearFlag (p : Phase) : (s.setPhase p).clearFlag = s.clearFlag := rfl
@[simp] theorem State.setPhase_displayFlag (p : Phase) : (s.setPhase p).displayFlag = s.displayFlag := rfl
@[simp] theorem State.setPhase_status (p : Phase) : (s.setPhase p).status = s.status := rfl
@[simp] theorem State.setPhase_phase (p : Phase) : (s.setPhase p).phase = p := rfl
@[simp] theorem State.setPhase_config (p : Phase) : (s.setPhase p).config = s.config := rfl
@[simp] theorem State.setPhase_events (p : Phase) : (s.setPhase p).events = s.events := rfl
@[simp] theorem State.setPhase_draws (p : Phase) : (s.setPhase p).draws = s.draws := rfl
@[simp] theorem State.setPhase_schedule (p : Phase) : (s.setPhase p).schedule = s.schedule := rfl
@[simp] theorem State.setPhase_readV (p : Phase) (r : Nibble) : (s.setPhase p).readV r = s.readV r := rfl
@[simp] theorem State.setPhase_keyHeld (p : Phase) (key : Nat) : (s.setPhase p).keyHeld key = s.keyHeld key := rfl

@[simp] theorem State.setSchedule_mem (l : List HostOp) : (s.setSchedule l).mem = s.mem := rfl
@[simp] theorem State.setSchedule_v (l : List HostOp) : (s.setSchedule l).v = s.v := rfl
@[simp] theorem State.setSchedule_i (l : List HostOp) : (s.setSchedule l).i = s.i := rfl
@[simp] theorem State.setSchedule_pc (l : List HostOp) : (s.setSchedule l).pc = s.pc := rfl
@[simp] theorem State.setSchedule_stack (l : List HostOp) : (s.setSchedule l).stack = s.stack := rfl
@[simp] theorem State.setSchedule_sp (l : List HostOp) : (s.setSchedule l).sp = s.sp := rfl
@[simp] theorem State.setSchedule_dt (l : List HostOp) : (s.setSchedule l).dt = s.dt := rfl
@[simp] theorem State.setSchedule_st (l : List HostOp) : (s.setSchedule l).st = s.st := rfl
@[simp] theorem State.setSchedule_disp (l : List HostOp) : (s.setSchedule l).disp = s.disp := rfl
@[simp] theorem State.setSchedule_keys (l : List HostOp) : (s.setSchedule l).keys = s.keys := rfl
@[simp] theorem State.setSchedule_clearFlag (l : List HostOp) : (s.setSchedule l).clearFlag = s.clearFlag := rfl
@[simp] theorem State.setSchedule_displayFlag (l : List HostOp) : (s.setSchedule l).displayFlag = s.displayFlag := rfl
@[simp] theorem State.setSchedule_status (l : List HostOp) : (s.setSchedule l).status = s.status := rfl
@[simp] theorem State.setSchedule_phase (l : List HostOp) : (s.setSchedule l).phase = s.phase := rfl
@[simp] theorem State.setSchedule_config (l : List HostOp) : (s.setSchedule l).config = s.config := rfl
@[simp] theorem State.setSchedule_events (l : List HostOp) : (s.setSchedule l).events = s.events := rfl
@[simp] theorem State.setSchedule_draws (l : List HostOp) : (s.setSchedule l).draws = s.draws := rfl
@[simp] theorem State.setSchedule_schedule (l : List HostOp) : (s.setSchedule l).schedule = l := rfl
@[simp] theorem State.setSchedule_readV (l : List HostOp) (r : Nibble) : (s.setSchedule l).readV r = s.readV r := rfl
@[simp] theorem State.setSchedule_keyHeld (l : List HostOp) (key : Nat) : (s.setSchedule l).keyHeld key = s.keyHeld key := rfl

@[simp] theorem State.emit_mem (e : Event) : (s.emit e).mem = s.mem := rfl
@[simp] theorem State.emit_v (e : Event) : (s.emit e).v = s.v := rfl
@[simp] theorem State.emit_i (e : Event) : (s.emit e).i = s.i := rfl
@[simp] theorem State.emit_pc (e : Event) : (s.emit e).pc = s.pc := rfl
@[simp] theorem State.emit_stack (e : Event) : (s.emit e).stack = s.stack := rfl
@[simp] theorem State.emit_sp (e : Event) : (s.emit e).sp = s.sp := rfl
@[simp] theorem State.emit_dt (e : Event) : (s.emit e).dt = s.dt := rfl
@[simp] theorem State.emit_st (e : Event) : (s.emit e).st = s.st := rfl
@[simp] theorem State.emit_disp (e : Event) : (s.emit e).disp = s.disp := rfl
@[simp] theorem State.emit_keys (e : Event) : (s.emit e).keys = s.keys := rfl
@[simp] theorem State.emit_clearFlag (e : Event) : (s.emit e).clearFlag = s.clearFlag := rfl
@[simp] theorem State.emit_displayFlag (e : Event) : (s.emit e).displayFlag = s.displayFlag := rfl
@[simp] theorem State.emit_status (e : Event) : (s.emit e).status = s.status := rfl
@[simp] theorem State.emit_phase (e : Event) : (s.emit e).phase = s.phase := rfl
@[simp] theorem State.emit_config (e : Event) : (s.emit e).config = s.config := rfl
@[simp] theorem State.emit_events (e : Event) : (s.emit e).events = s.events ++ [e] := rfl
@[simp] theorem State.emit_draws (e : Event) : (s.emit e).draws = s.draws := rfl
@[simp] theorem State.emit_schedule (e : Event) : (s.emit e).schedule = s.schedule := rfl
@[simp] theorem State.emit_readV (e : Event) (r : Nibble) : (s.emit e).readV r = s.readV r := rfl
@[simp] theorem State.emit_keyHeld (e : Event) (key : Nat) : (s.emit e).keyHeld key = s.keyHeld key := rfl

@[simp] theorem State.countDraw_mem : (s.countDraw).mem = s.mem := rfl
@[simp] theorem State.countDraw_v : (s.countDraw).v = s.v := rfl
@[simp] theorem State.countDraw_i : (s.countDraw).i = s.i := rfl
@[simp] theorem State.countDraw_pc : (s.countDraw).pc = s.pc := rfl
@[simp] theorem State.countDraw_stack : (s.countDraw).stack = s.stack := rfl
@[simp] theorem State.countDraw_sp : (s.countDraw).sp = s.sp := rfl
@[simp] theorem State.countDraw_dt : (s.countDraw).dt = s.dt := rfl
@[simp] theorem State.countDraw_st : (s.countDraw).st = s.st := rfl
@[simp] theorem State.countDraw_disp : (s.countDraw).disp = s.disp := rfl
@[simp] theorem State.countDraw_keys : (s.countDraw).keys = s.keys := rfl
@[simp] theorem State.countDraw_clearFlag : (s.countDraw).clearFlag = s.clearFlag := rfl
@[simp] theorem State.countDraw_displayFlag : (s.countDraw).displayFlag = s.displayFlag := rfl
@[simp] theorem State.countDraw_status : (s.countDraw).status = s.status := rfl
@[simp] theorem State.countDraw_phase : (s.countDraw).phase = s.phase := rfl
@[simp] theorem State.countDraw_config : (s.countDraw).config = s.config := rfl
@[simp] theorem State.countDraw_events : (s.countDraw).events = s.events := rfl
@[simp] theorem State.countDraw_draws : (s.countDraw).draws = s.draws + 1 := rfl
@[simp] theorem State.countDraw_schedule : (s.countDraw).schedule = s.schedule := rfl
@[simp] theorem State.countDraw_readV (r : Nibble) : (s.countDraw).readV r = s.readV r := rfl
@[simp] theorem State.countDraw_keyHeld (key : Nat) : (s.countDraw).keyHeld key = s.keyHeld key := rfl

@[simp] theorem State.withOrder_mem (o : VfAliasOrder) : (s.withOrder o).mem = s.mem := rfl
@[simp] theorem State.withOrder_v (o : VfAliasOrder) : (s.withOrder o).v = s.v := rfl
@[simp] theorem State.withOrder_i (o : VfAliasOrder) : (s.withOrder o).i = s.i := rfl
@[simp] theorem State.withOrder_pc (o : VfAliasOrder) : (s.withOrder o).pc = s.pc := rfl
@[simp] theorem State.withOrder_stack (o : VfAliasOrder) : (s.withOrder o).stack = s.stack := rfl
@[simp] theorem State.withOrder_sp (o : VfAliasOrder) : (s.withOrder o).sp = s.sp := rfl
@[simp] theorem State.withOrder_dt (o : VfAliasOrder) : (s.withOrder o).dt = s.dt := rfl
@[simp] theorem State.withOrder_st (o : VfAliasOrder) : (s.withOrder o).st = s.st := rfl
@[simp] theorem State.withOrder_disp (o : VfAliasOrder) : (s.withOrder o).disp = s.disp := rfl
@[simp] theorem State.withOrder_keys (o : VfAliasOrder) : (s.withOrder o).keys = s.keys := rfl
@[simp] theorem State.withOrder_clearFlag (o : VfAliasOrder) : (s.withOrder o).clearFlag = s.clearFlag := rfl
@[simp] theorem State.withOrder_displayFlag (o : VfAliasOrder) : (s.withOrder o).displayFlag = s.displayFlag := rfl
@[simp] theorem State.withOrder_status (o : VfAliasOrder) : (s.withOrder o).status = s.status := rfl
@[simp] theorem State.withOrder_phase (o : VfAliasOrder) : (s.withOrder o).phase = s.phase := rfl
@[simp] theorem State.withOrder_config (o : VfAliasOrder) : (s.withOrder o).config = { s.config with vfAliasOrder := o } := rfl
@[simp] theorem State.withOrder_events (o : VfAliasOrder) : (s.withOrder o).events = s.events := rfl
@[simp] theorem State.withOrder_draws (o : VfAliasOrder) : (s.withOrder o).draws = s.draws := rfl
@[simp] theorem State.withOrder_schedule (o : VfAliasOrder) : (s.withOrder o).schedule = s.schedule := rfl
@[simp] theorem State.withOrder_readV (o : VfAliasOrder) (r : Nibble) : (s.withOrder o).readV r = s.readV r := rfl
@[simp] theorem State.withOrder_keyHeld (o : VfAliasOrder) (key : Nat) : (s.withOrder o).keyHeld key = s.keyHeld key := rfl

/-! The updates that are one of the above by definition. -/

@[simp] theorem State.advance_eq : s.advance = s.setPc (s.pc + 2#16) := rfl
@[simp] theorem State.rewind_eq : s.rewind = s.setPc (s.pc - 2#16) := rfl
@[simp] theorem State.takeFault_eq (f : Fault) : s.takeFault f = s.setStatus (.faulted f) := rfl
@[simp] theorem State.leftBy_next (t : State) : s.leftBy (.next t) = t := rfl
@[simp] theorem State.leftBy_fault (f : Fault) : s.leftBy (.fault f) = s.takeFault f := rfl
@[simp] theorem State.leftBy_refused (r : Refusal) : s.leftBy (.refused r) = s := rfl
@[simp] theorem State.skipIf_true : s.skipIf true = s.advance := rfl
@[simp] theorem State.skipIf_false : s.skipIf false = s := rfl
@[simp] theorem State.setSchedule_self : s.setSchedule s.schedule = s := rfl
@[simp] theorem State.setPc_self : s.setPc s.pc = s := rfl
@[simp] theorem State.setPc_setPc (a b : Word) : (s.setPc a).setPc b = s.setPc b := rfl
@[simp] theorem State.writeV_advance (x : Nibble) (b : Byte) : (s.writeV x b).advance = s.advance.writeV x b := rfl

end Sys2Proof.Machine
end

