-- ==== Sys2Proof/Laws/Memory.lean ====
section
/-! SUPPORT. Memory: a read after a write, and that every operation keeps the canonical form and the address space. -/

namespace Sys2Proof.Machine

@[simp] theorem Memory.read_nil (a : Nat) : Memory.read [] a = Memory.unlisted := rfl

theorem Memory.read_cons (k : Nat) (c : Byte) (m : Memory) (a : Nat) :
    Memory.read ((k, c) :: m) a = if k = a then c else Memory.read m a := rfl

theorem Memory.wf_nil : Memory.wf [] := by decide

theorem Memory.wf_cons {k : Nat} {c : Byte} {m : Memory} :
    Memory.wf ((k, c) :: m) ↔ (∀ d ∈ m, k < d.1) ∧ c ≠ Memory.unlisted ∧ Memory.wf m := by
  simp only [Memory.wf, List.map_cons, List.pairwise_cons, List.mem_map, List.mem_cons, forall_eq_or_imp]
  constructor
  · rintro ⟨⟨h1, h2⟩, h3, h4⟩
    exact ⟨fun d hd => h1 _ ⟨d, hd, rfl⟩, h3, h2, h4⟩
  · rintro ⟨h1, h3, h2, h4⟩
    exact ⟨⟨by rintro _ ⟨d, hd, rfl⟩; exact h1 d hd, h2⟩, h3, h4⟩

/-- An address below every listed one is unlisted. -/
theorem Memory.read_of_lt {m : Memory} {a : Nat} (h : ∀ d ∈ m, a < d.1) : Memory.read m a = Memory.unlisted := by
  induction m with
  | nil => rfl
  | cons d m ih =>
    obtain ⟨k, c⟩ := d
    have hk : a < k := h (k, c) (by simp)
    rw [Memory.read_cons, if_neg (by omega), ih (fun d hd => h d (by simp [hd]))]

/-- A read of the address just written gives the byte written. -/
theorem Memory.read_write_same {m : Memory} (h : Memory.wf m) (a : Nat) (b : Byte) :
    Memory.read (Memory.write m a b) a = b := by
  induction m with
  | nil => by_cases hb : b = Memory.unlisted <;> simp [Memory.write, Memory.read, hb]
  | cons d m ih =>
    obtain ⟨k, c⟩ := d
    obtain ⟨hlt, hc, hm⟩ := Memory.wf_cons.mp h
    simp only [Memory.write]
    split_ifs with h1 h2 h3 h4
    · rw [h2]
      exact Memory.read_of_lt (by simp only [List.mem_cons, forall_eq_or_imp]; exact ⟨h1, fun d hd => by have := hlt d hd; omega⟩)
    · simp [Memory.read]
    · rw [h4, h3]; exact Memory.read_of_lt hlt
    · simp [Memory.read, h3]
    · rw [Memory.read_cons, if_neg (by omega), ih hm]

/-- A write leaves every other address alone, whatever the list. -/
theorem Memory.read_write_other (m : Memory) {a a' : Nat} (b : Byte) (h : a' ≠ a) :
    Memory.read (Memory.write m a b) a' = Memory.read m a' := by
  induction m with
  | nil => by_cases hb : b = Memory.unlisted <;> simp [Memory.write, Memory.read, hb, Ne.symm h]
  | cons d m ih =>
    obtain ⟨k, c⟩ := d
    simp only [Memory.write]
    split_ifs with h1 h2 h3 h4
    · rfl
    · rw [Memory.read_cons a, if_neg (Ne.symm h)]
    · rw [Memory.read_cons k, if_neg (by omega)]
    · rw [Memory.read_cons, Memory.read_cons, if_neg (by omega), if_neg (by omega)]
    · simp [Memory.read_cons, ih]

theorem Memory.mem_write {m : Memory} {a : Nat} {b : Byte} {d : Host.Cell} (h : d ∈ Memory.write m a b) :
    d ∈ m ∨ d = (a, b) := by
  induction m with
  | nil => by_cases hb : b = Memory.unlisted <;> simp_all [Memory.write]
  | cons e m ih =>
    obtain ⟨k, c⟩ := e
    simp only [Memory.write] at h
    split_ifs at h with h1 h2 h3 h4
    · exact .inl h
    · simp only [List.mem_cons] at h ⊢; tauto
    · exact .inl (List.mem_cons_of_mem _ h)
    · subst h3; simp only [List.mem_cons] at h ⊢; tauto
    · simp only [List.mem_cons] at h ⊢
      rcases h with h | h
      · exact .inl (.inl h)
      · rcases ih h with h | h
        · exact .inl (.inr h)
        · exact .inr h

/-- A write keeps the canonical form. -/
theorem Memory.wf_write {m : Memory} (h : Memory.wf m) (a : Nat) (b : Byte) : Memory.wf (Memory.write m a b) := by
  induction m with
  | nil =>
    by_cases hb : b = Memory.unlisted
    · simpa [Memory.write, hb] using Memory.wf_nil
    · simp only [Memory.write, if_neg hb]; exact Memory.wf_cons.mpr ⟨by simp, hb, Memory.wf_nil⟩
  | cons d m ih =>
    obtain ⟨k, c⟩ := d
    have hd := Memory.wf_cons.mp h
    obtain ⟨hlt, hc, hm⟩ := hd
    simp only [Memory.write]
    split_ifs with h1 h2 h3 h4
    · exact h
    · refine Memory.wf_cons.mpr ⟨?_, h2, h⟩
      simp only [List.mem_cons, forall_eq_or_imp]
      exact ⟨h1, fun e he => by have := hlt e he; omega⟩
    · exact hm
    · exact Memory.wf_cons.mpr ⟨hlt, h4, hm⟩
    · refine Memory.wf_cons.mpr ⟨fun e he => ?_, hc, ih hm⟩
      rcases Memory.mem_write he with he | rfl
      · exact hlt e he
      · simp only; omega

/-- A write inside the address space lists no address outside it. -/
theorem Memory.inSpace_write {m : Memory} (h : Memory.inSpace m) {a : Nat} (b : Byte) (ha : a < memSize) :
    Memory.inSpace (Memory.write m a b) := by
  intro d hd
  rcases Memory.mem_write hd with hd | rfl
  · exact h d hd
  · exact ha

theorem Memory.wf_writeBytes {m : Memory} (h : Memory.wf m) (a : Nat) (bs : List Byte) :
    Memory.wf (Memory.writeBytes m a bs) := by
  induction bs generalizing m a with
  | nil => exact h
  | cons b bs ih => exact ih (Memory.wf_write h a b) (a + 1)

theorem Memory.inSpace_writeBytes {m : Memory} (h : Memory.inSpace m) {a : Nat} {bs : List Byte}
    (ha : a + bs.length ≤ memSize) : Memory.inSpace (Memory.writeBytes m a bs) := by
  induction bs generalizing m a with
  | nil => exact h
  | cons b bs ih =>
    simp only [List.length_cons] at ha
    exact ih (Memory.inSpace_write h b (by omega)) (by omega)

/-- Bytes written from `a` leave every address outside their window alone. -/
theorem Memory.read_writeBytes_outside (m : Memory) {a a' : Nat} {bs : List Byte} (h : a' < a ∨ a + bs.length ≤ a') :
    Memory.read (Memory.writeBytes m a bs) a' = Memory.read m a' := by
  induction bs generalizing m a with
  | nil => rfl
  | cons b bs ih =>
    simp only [List.length_cons] at h
    simp only [Memory.writeBytes]
    rw [ih (Memory.write m a b) (by omega), Memory.read_write_other m b (by omega)]

/-- Bytes written from `a` are read back, each at its own address. -/
theorem Memory.read_writeBytes_inside {m : Memory} (hm : Memory.wf m) {a k : Nat} {bs : List Byte} (h : k < bs.length) :
    Memory.read (Memory.writeBytes m a bs) (a + k) = bs[k] := by
  induction bs generalizing m a k with
  | nil => simp at h
  | cons b bs ih =>
    simp only [Memory.writeBytes]
    cases k with
    | zero =>
      rw [Memory.read_writeBytes_outside _ (by omega)]
      exact Memory.read_write_same hm a b
    | succ k =>
      have := ih (Memory.wf_write hm a b) (a := a + 1) (k := k) (by simpa using h)
      simpa [Nat.add_assoc, Nat.add_comm 1 k] using this

end Sys2Proof.Machine
end

