-- ==== Sys2Proof/Laws/Regs.lean ====
section
/-! SUPPORT. Registers, the call stack, keys, and the transfers between registers and memory. -/

namespace Sys2Proof.Machine

variable (s : State)

/-- A register reads as the last value written to it, and as before otherwise. -/
theorem State.readV_writeV (x r : Nibble) (b : Byte) : (s.writeV x b).readV r = if r = x then b else s.readV r := by
  simp only [State.readV, State.writeV, Vector.getElem_set]
  by_cases h : r = x
  · simp [h]
  · have : x.toNat ≠ r.toNat := fun e => h (BitVec.eq_of_toNat_eq e.symm)
    simp [h, this]

@[simp] theorem State.readV_writeV_same (x : Nibble) (b : Byte) : (s.writeV x b).readV x = b := by
  simp [State.readV_writeV]

@[simp] theorem State.readV_writeV_ne {x r : Nibble} (b : Byte) (h : r ≠ x) : (s.writeV x b).readV r = s.readV r := by
  simp [State.readV_writeV, h]

@[simp] theorem State.writeV_readV (x : Nibble) : s.writeV x (s.readV x) = s := by
  simp [State.writeV, State.readV]

/-! The call stack. -/

theorem State.push_eq_some {a : Word} (h : s.sp.val < 16) :
    s.push a = some (s.setStack (s.stack.set s.sp.val a h) ⟨s.sp.val + 1, by omega⟩) := by
  simp [State.push, h]

theorem State.push_eq_none {a : Word} : s.push a = none ↔ s.sp = 16 := by
  unfold State.push
  split <;> simp only [reduceCtorEq, false_iff, true_iff] <;> (have := s.sp.isLt; rw [Fin.ext_iff]; simp; omega)

theorem State.pop_eq_some (h : s.sp.val ≠ 0) :
    s.pop = some (s.stack[s.sp.val - 1]'(by omega), s.setStack s.stack ⟨s.sp.val - 1, by omega⟩) := by
  simp [State.pop, h]

theorem State.pop_eq_none : s.pop = none ↔ s.sp = 0 := by
  unfold State.pop
  split
  · next h => exact ⟨fun _ => Fin.ext h, fun _ => rfl⟩
  · next h => exact ⟨nofun, fun e => (h (by rw [e]; rfl)).elim⟩

/-! FX65. -/

/-- Loading registers writes no other piece of the state. -/
theorem State.loadRegs_eq (n : Nat) : ∃ w, s.loadRegs n = { s with v := w } := by
  induction n with
  | zero => exact ⟨s.v, rfl⟩
  | succ n ih => obtain ⟨w, hw⟩ := ih; exact ⟨_, by rw [State.loadRegs, hw]; rfl⟩

/-- FX65 loads V[r] from `I + r` for each r below n and leaves the others alone. -/
theorem State.loadRegs_readV {n : Nat} (hn : n ≤ 16) (r : Nibble) :
    (s.loadRegs n).readV r = if r.toNat < n then s.mem.read (s.i.toNat + r.toNat) else s.readV r := by
  induction n with
  | zero => simp [State.loadRegs]
  | succ n ih =>
    rw [State.loadRegs, State.readV_writeV, ih (by omega)]
    by_cases h : r = BitVec.ofNat 4 n
    · have e : r.toNat = n := by rw [h, BitVec.toNat_ofNat]; omega
      rw [if_pos h, if_pos (by omega), e]; rfl
    · have : r.toNat ≠ n := fun e => h (by rw [← e]; simp)
      simp only [if_neg h]
      split_ifs <;> first | rfl | omega

/-! FX55. -/

theorem State.storeRegs_wf (h : Memory.wf s.mem) (n : Nat) : Memory.wf (s.storeRegs n) := by
  induction n with
  | zero => exact h
  | succ n ih => exact Memory.wf_write ih _ _

theorem State.storeRegs_inSpace (h : Memory.inSpace s.mem) {n : Nat} (hn : s.i.toNat + n ≤ memSize) :
    Memory.inSpace (s.storeRegs n) := by
  induction n with
  | zero => exact h
  | succ n ih => exact Memory.inSpace_write (ih (by omega)) _ (by simp only [State.indexAddr]; omega)

/-- FX55 leaves every byte outside its window alone. -/
theorem State.storeRegs_outside {n a : Nat} (h : a < s.i.toNat ∨ s.i.toNat + n ≤ a) :
    (s.storeRegs n).read a = s.mem.read a := by
  induction n with
  | zero => rfl
  | succ n ih =>
    rw [State.storeRegs, Memory.read_write_other _ _ (by simp only [State.indexAddr]; omega), ih (by omega)]

/-- FX55 stores V[k] at `I + k` for each k below n. -/
theorem State.storeRegs_inside (h : Memory.wf s.mem) {n k : Nat} (hk : k < n) :
    (s.storeRegs n).read (s.i.toNat + k) = s.readV (BitVec.ofNat 4 k) := by
  induction n with
  | zero => omega
  | succ n ih =>
    by_cases e : k = n
    · subst e; exact Memory.read_write_same (s.storeRegs_wf h k) _ _
    · rw [State.storeRegs, Memory.read_write_other _ _ (by simp only [State.indexAddr]; omega), ih (by omega)]

/-! Keys. -/

/-- FX0A finds a key exactly when one is held, and then the lowest (45_keys_timers.md R183). -/
theorem State.firstKey?_eq_some {k : Nat} :
    s.firstKey? = some k ↔ k < 16 ∧ s.keyHeld k = true ∧ ∀ j < k, s.keyHeld j = false := by
  simp only [State.firstKey?, List.find?_range_eq_some, List.mem_range, Bool.not_eq_true']
  tauto

theorem State.firstKey?_eq_none : s.firstKey? = none ↔ ∀ k < 16, s.keyHeld k = false := by
  simp [State.firstKey?]

end Sys2Proof.Machine
end

