-- ==== Sys2Proof/Laws/Draw.lean ====
section
/-! SUPPORT. The display buffer, and what each level of a sprite draw does (44_display.md R171). -/

namespace Sys2Proof.Machine

@[simp] theorem Display.pixel_blank (px : Fin 64) (py : Fin 32) : Display.blank.pixel px py = false := by
  simp [Display.pixel, Display.blank]

/-- A toggle inverts one pixel and leaves the others alone. -/
theorem Display.pixel_toggle (d : Display) (px qx : Fin 64) (py qy : Fin 32) :
    (d.toggle px py).pixel qx qy = if qx = px ∧ qy = py then !d.pixel qx qy else d.pixel qx qy := by
  simp only [Display.pixel, Display.toggle, Vector.getElem_set, Fin.ext_iff]
  by_cases hy : py.val = qy.val
  · by_cases hx : px.val = qx.val
    · simp [hx, hy]
    · simp [hy, hx, Ne.symm hx]
  · simp [hy, Ne.symm hy, eq_comm]

/-- Two displays with the same pixels are the same display. -/
theorem Display.ext {d e : Display} (h : ∀ px py, d.pixel px py = e.pixel px py) : d = e := by
  apply Vector.ext
  intro y hy
  apply Vector.ext
  intro x hx
  exact h ⟨x, hx⟩ ⟨y, hy⟩

/-- Toggling a list of distinct pixels, each with its bit. `cells` gives the pixel and the bit of the k-th. -/
structure Strokes where
  px : Nat → Fin 64
  py : Nat → Fin 32
  bit : Nat → Bool

/-- The first n strokes, one after another. -/
def Strokes.run (c : Strokes) (n : Nat) (acc : Drawing) : Drawing :=
  (List.range n).foldl (fun a k => if c.bit k then drawPixel (c.px k) (c.py k) a else a) acc

/-- One of the first n strokes toggles this pixel. -/
def Strokes.Hits (c : Strokes) (n : Nat) (qx : Fin 64) (qy : Fin 32) : Prop :=
  ∃ k < n, c.bit k = true ∧ c.px k = qx ∧ c.py k = qy

/-- Strokes on distinct pixels invert exactly the pixels they hit, and collide exactly when one of those was set. -/
theorem Strokes.run_spec (c : Strokes) {n : Nat} (acc : Drawing)
    (hinj : ∀ j < n, ∀ k < n, c.px j = c.px k → c.py j = c.py k → j = k) :
    (∀ qx qy, ((c.run n acc).disp.pixel qx qy = true ↔ (acc.disp.pixel qx qy = true ↔ ¬ c.Hits n qx qy))) ∧
    ((c.run n acc).collision = true ↔
      acc.collision = true ∨ ∃ k < n, c.bit k = true ∧ acc.disp.pixel (c.px k) (c.py k) = true) := by
  induction n with
  | zero => simp [Strokes.run, Strokes.Hits]
  | succ n ih =>
    obtain ⟨ihd, ihc⟩ := ih (fun j hj k hk => hinj j (by omega) k (by omega))
    have hrun : c.run (n + 1) acc =
        if c.bit n then drawPixel (c.px n) (c.py n) (c.run n acc) else c.run n acc := by
      simp [Strokes.run, List.range_succ]
    have hmiss : ¬ c.Hits n (c.px n) (c.py n) := by
      rintro ⟨k, hk, -, hx, hy⟩
      have := hinj k (by omega) n (by omega) hx hy
      omega
    have hhits : ∀ qx qy, c.Hits (n + 1) qx qy ↔ c.Hits n qx qy ∨ (c.bit n = true ∧ c.px n = qx ∧ c.py n = qy) := by
      intro qx qy
      constructor
      · rintro ⟨k, hk, h⟩
        rcases Nat.lt_succ_iff_lt_or_eq.mp hk with hk | rfl
        · exact .inl ⟨k, hk, h⟩
        · exact .inr h
      · rintro (⟨k, hk, h⟩ | h)
        · exact ⟨k, by omega, h⟩
        · exact ⟨n, by omega, h⟩
    have hex : (∃ k < n + 1, c.bit k = true ∧ acc.disp.pixel (c.px k) (c.py k) = true) ↔
        (∃ k < n, c.bit k = true ∧ acc.disp.pixel (c.px k) (c.py k) = true) ∨
          (c.bit n = true ∧ acc.disp.pixel (c.px n) (c.py n) = true) := by
      constructor
      · rintro ⟨k, hk, h⟩
        rcases Nat.lt_succ_iff_lt_or_eq.mp hk with hk | rfl
        · exact .inl ⟨k, hk, h⟩
        · exact .inr h
      · rintro (⟨k, hk, h⟩ | h)
        · exact ⟨k, by omega, h⟩
        · exact ⟨n, by omega, h⟩
    by_cases hb : c.bit n = true
    · rw [hrun, if_pos hb]
      constructor
      · intro qx qy
        rw [show (drawPixel (c.px n) (c.py n) (c.run n acc)).disp = (c.run n acc).disp.toggle (c.px n) (c.py n) from rfl,
          Display.pixel_toggle, hhits]
        by_cases hq : qx = c.px n ∧ qy = c.py n
        · obtain ⟨rfl, rfl⟩ := hq
          have := ihd (c.px n) (c.py n)
          simp only [hmiss, hb, not_false_iff, iff_true, and_self, if_true, Bool.not_eq_true', false_or, not_true,
            iff_false, Bool.not_eq_true] at this ⊢
          rw [← Bool.not_eq_true, ← Bool.not_eq_true, this]
        · have hq' : ¬ (c.bit n = true ∧ c.px n = qx ∧ c.py n = qy) := fun ⟨_, h1, h2⟩ => hq ⟨h1.symm, h2.symm⟩
          simp only [if_neg hq, hq', or_false]
          exact ihd qx qy
      · rw [show (drawPixel (c.px n) (c.py n) (c.run n acc)).collision =
          ((c.run n acc).collision || (c.run n acc).disp.pixel (c.px n) (c.py n)) from rfl, hex]
        have := ihd (c.px n) (c.py n)
        simp only [hmiss, not_false_iff, iff_true] at this
        simp only [Bool.or_eq_true, ihc, this, hb, true_and, or_assoc]
    · rw [hrun, if_neg hb]
      refine ⟨fun qx qy => ?_, ?_⟩
      · rw [hhits, ihd]; simp [hb]
      · rw [ihc, hex]; simp [hb]

/-- A sprite as strokes: the k-th is bit `k mod 8` of row `k / 8`. -/
def spriteStrokes (s : State) (cx cy : Nat) : Strokes where
  px k := wrapColumn cx (k % 8)
  py k := wrapRow cy (k / 8)
  bit k := (s.mem.read (s.indexAddr (k / 8))).getLsbD (7 - k % 8)

/-- The nested loops of a draw are one pass over its strokes. -/
theorem State.drawSprite_eq (s : State) (cx cy n : Nat) :
    s.drawSprite cx cy n = (spriteStrokes s cx cy).run (8 * n) { disp := s.disp, collision := false } := by
  induction n with
  | zero => rfl
  | succ n ih =>
    have hl : s.drawSprite cx cy (n + 1) =
        drawRow (s.mem.read (s.indexAddr n)) cx (wrapRow cy n) (s.drawSprite cx cy n) := by
      simp [State.drawSprite, List.range_succ]
    have hr : 8 * (n + 1) = 8 * n + 8 := by ring
    rw [hl, ih, hr]
    simp only [Strokes.run, List.range_add, List.foldl_append, List.foldl_map, drawRow]
    apply List.foldl_ext
    intro a k hk
    have hk8 : k < 8 := by simpa using hk
    have h1 : (8 * n + k) / 8 = n := by omega
    have h2 : (8 * n + k) % 8 = k := by omega
    simp only [spriteStrokes, drawBit, h1, h2]

/-- No pixel is toggled twice in one draw: 8 columns < 64 and at most 15 rows < 32 (44_display.md R171). -/
theorem spriteStrokes_inj (s : State) (cx cy : Nat) {n : Nat} (hn : n ≤ 15) :
    ∀ j < 8 * n, ∀ k < 8 * n, (spriteStrokes s cx cy).px j = (spriteStrokes s cx cy).px k →
      (spriteStrokes s cx cy).py j = (spriteStrokes s cx cy).py k → j = k := by
  intro j hj k hk hx hy
  simp only [spriteStrokes, wrapColumn, wrapRow, Fin.ext_iff, Fin.val_ofNat] at hx hy
  omega

/-- The strokes of a sprite hit exactly the pixels it covers. -/
theorem spriteStrokes_hits (s : State) {cx cy n : Nat} (hx : cx < 64) (hy : cy < 32) (hn : n ≤ 15) (px : Fin 64)
    (py : Fin 32) : (spriteStrokes s cx cy).Hits (8 * n) px py ↔ spriteCovers s cx cy n px py = true := by
  simp only [Strokes.Hits, spriteStrokes, spriteCovers, wrapColumn, wrapRow, Fin.ext_iff, Fin.val_ofNat,
    State.indexAddr, Bool.and_eq_true, decide_eq_true_eq]
  constructor
  · rintro ⟨k, hk, hb, h1, h2⟩
    have col : (px.val + 64 - cx) % 64 = k % 8 := by omega
    have row : (py.val + 32 - cy) % 32 = k / 8 := by omega
    rw [col, row]
    exact ⟨⟨by omega, by omega⟩, hb⟩
  · rintro ⟨⟨h1, h2⟩, hb⟩
    have row : (8 * ((py.val + 32 - cy) % 32) + (px.val + 64 - cx) % 64) / 8 = (py.val + 32 - cy) % 32 := by omega
    have col : (8 * ((py.val + 32 - cy) % 32) + (px.val + 64 - cx) % 64) % 8 = (px.val + 64 - cx) % 64 := by omega
    refine ⟨8 * ((py.val + 32 - cy) % 32) + (px.val + 64 - cx) % 64, by omega, ?_, ?_, ?_⟩
    · rw [row, col]; exact hb
    · have := px.isLt; omega
    · have := py.isLt; omega

/-- The buffer a draw leaves: every pixel the sprite covers inverted, the others as they were. -/
theorem State.drawSprite_pixel (s : State) {cx cy n : Nat} (hx : cx < 64) (hy : cy < 32) (hn : n ≤ 15) (px : Fin 64)
    (py : Fin 32) :
    (s.drawSprite cx cy n).disp.pixel px py = (s.disp.pixel px py ^^ spriteCovers s cx cy n px py) := by
  have h := ((spriteStrokes s cx cy).run_spec { disp := s.disp, collision := false }
    (spriteStrokes_inj s cx cy hn)).1 px py
  rw [spriteStrokes_hits s hx hy hn] at h
  rw [State.drawSprite_eq, Bool.eq_iff_iff, h]
  cases s.disp.pixel px py <;> cases spriteCovers s cx cy n px py <;> simp

/-- A draw notes a collision exactly when a set pixel lies under the sprite. -/
theorem State.drawSprite_collision (s : State) {cx cy n : Nat} (hx : cx < 64) (hy : cy < 32) (hn : n ≤ 15) :
    (s.drawSprite cx cy n).collision = true ↔ spriteCollides s cx cy n := by
  have h := ((spriteStrokes s cx cy).run_spec { disp := s.disp, collision := false }
    (spriteStrokes_inj s cx cy hn)).2
  rw [State.drawSprite_eq, h]
  simp only [Bool.false_eq_true, false_or]
  constructor
  · rintro ⟨k, hk, hb, hp⟩
    exact ⟨_, _, (spriteStrokes_hits s hx hy hn _ _).mp ⟨k, hk, hb, rfl, rfl⟩, hp⟩
  · rintro ⟨px, py, hc, hp⟩
    obtain ⟨k, hk, hb, rfl, rfl⟩ := (spriteStrokes_hits s hx hy hn _ _).mpr hc
    exact ⟨k, hk, hb, hp⟩

end Sys2Proof.Machine
end

