-- ==== Sys2Proof/Laws/Ops.lean ====
section
/-! SUPPORT. The shared operations: range checks, fetching, key skips, admission, and the schedule. Each lemma says once
everything its operation can do. -/

namespace Sys2Proof.Machine

variable (s : State)

/-! Range checks. -/

theorem outOfRange?_eq_none {a n : Nat} : outOfRange? a n = none ↔ n = 0 ∨ a + n ≤ 4096 := by
  unfold outOfRange?
  split_ifs with h <;> simp [memSize] at * <;> omega

theorem outOfRange?_eq_some {a n addr : Nat} :
    outOfRange? a n = some addr ↔ 0 < n ∧ 4096 < a + n ∧ addr = lowestOutOfRange a := by
  simp only [outOfRange?, lowestOutOfRange, memSize]
  by_cases h : 0 < n ∧ 4096 ≤ a + n - 1
  · rw [if_pos h, Option.some.injEq, eq_comm]
    exact ⟨fun e => ⟨h.1, by omega, e⟩, fun e => e.2.2⟩
  · rw [if_neg h]
    exact ⟨nofun, fun e => by omega⟩

theorem State.indexFault?_eq_none {k : Nat} : s.indexFault? k = none ↔ k = 0 ∨ s.i.toNat + k ≤ 4096 :=
  outOfRange?_eq_none

theorem State.indexFault?_eq_some {k addr : Nat} :
    s.indexFault? k = some addr ↔ 0 < k ∧ 4096 < s.i.toNat + k ∧ addr = lowestOutOfRange s.i.toNat :=
  outOfRange?_eq_some

/-- An index-relative instruction runs exactly when all its bytes are in memory. -/
theorem State.checkedIndex_eq_next {k : Nat} {i : Instr} {t u : State} :
    s.checkedIndex k i t = .next u ↔ (k = 0 ∨ s.i.toNat + k ≤ 4096) ∧ t = u := by
  unfold State.checkedIndex
  split
  · next h => simp only [raiseFrom, reduceCtorEq, false_iff]; rw [State.indexFault?_eq_some] at h; omega
  · next h => rw [State.indexFault?_eq_none] at h; simp [h]

/-- And otherwise it faults, with the lowest address out of range. -/
theorem State.checkedIndex_eq_fault {k : Nat} {i : Instr} {t : State} {f : Fault} :
    s.checkedIndex k i t = .fault f ↔
      0 < k ∧ 4096 < s.i.toNat + k ∧ f = .memoryOutOfRange (s.pc - 2#16) (encode i) (lowestOutOfRange s.i.toNat) := by
  unfold State.checkedIndex
  split
  · next h =>
    rw [State.indexFault?_eq_some] at h
    obtain ⟨h1, h2, rfl⟩ := h
    simp only [raiseFrom, State.instrAddr, Host.Outcome.fault.injEq, h1, h2, true_and, eq_comm]
  · next h => rw [State.indexFault?_eq_none] at h; simp only [reduceCtorEq, false_iff]; omega

theorem State.checkedIndex_ne_refused {k : Nat} {i : Instr} {t : State} {r : Refusal} :
    s.checkedIndex k i t ≠ .refused r := by
  unfold State.checkedIndex; split <;> simp [raiseFrom]

/-- A skip writes `pc` only: 2 more when the test holds. -/
theorem State.skipIf_eq (test : Bool) : s.skipIf test = s.setPc (if test then s.pc + 2#16 else s.pc) := by
  cases test <;> rfl

/-! Key skips. -/

theorem State.keySkip_lt {x : Nibble} {i : Instr} {pressed : Bool} (h : (s.readV x).toNat < 16) :
    s.keySkip x i pressed = .next (s.skipIf (s.keyHeld (s.readV x).toNat == pressed)) := by
  simp [State.keySkip, Nat.not_le.mpr h]

theorem State.keySkip_ge {x : Nibble} {i : Instr} {pressed : Bool} (h : 16 ≤ (s.readV x).toNat) :
    s.keySkip x i pressed = .fault (.keyIndexOutOfRange (s.pc - 2#16) (encode i)) := by
  simp only [State.keySkip, if_pos h]; rfl

/-! Fetch. -/

theorem State.fetch_ok (h : s.pc.toNat + 1 < 4096) : s.fetch = .ok (s.mem.readWord s.pc.toNat) := by
  have : outOfRange? s.pc.toNat 2 = none := outOfRange?_eq_none.mpr (.inr (by omega))
  simp [State.fetch, this]

theorem State.fetch_error (h : 4096 ≤ s.pc.toNat + 1) :
    s.fetch = .error (.fetchOutOfRange s.pc (lowestOutOfRange s.pc.toNat)) := by
  have : outOfRange? s.pc.toNat 2 = some (lowestOutOfRange s.pc.toNat) :=
    outOfRange?_eq_some.mpr ⟨by omega, by omega, rfl⟩
  simp [State.fetch, this]

/-- A word's number is its first byte times 256 plus its second. -/
theorem wordOfBytes_toNat (hi lo : Byte) : (wordOfBytes hi lo).toNat = hi.toNat * 256 + lo.toNat := by
  have := lo.isLt
  simp only [wordOfBytes, BitVec.toNat_append, Nat.shiftLeft_eq]
  rw [Nat.mul_comm, ← Nat.two_pow_add_eq_or_of_lt this]

/-! Admission. -/

theorem State.ifAdmitted_eq (h : s.status = .running) {p : Phase} (hp : s.phase = p) (r : Result) : s.ifAdmitted p r = r := by
  simp [State.ifAdmitted, h, hp]

theorem State.ifAdmitted_faulted {f : Fault} (h : s.status = .faulted f) (p : Phase) (r : Result) :
    s.ifAdmitted p r = .refused .coreFaulted := by
  simp [State.ifAdmitted, h]

theorem State.ifAdmitted_phase (h : s.status = .running) {p : Phase} (hp : s.phase ≠ p) (r : Result) :
    s.ifAdmitted p r = .refused .bootOrder := by
  simp [State.ifAdmitted, h, hp]

/-- An admitted operation ran in a running core, in its phase. -/
theorem State.ifAdmitted_eq_next {p : Phase} {r : Result} {t : State} :
    s.ifAdmitted p r = .next t ↔ s.status = .running ∧ s.phase = p ∧ r = .next t := by
  unfold State.ifAdmitted
  split <;> simp_all
  split_ifs <;> simp_all

theorem State.ifAdmitted_eq_fault {p : Phase} {r : Result} {f : Fault} :
    s.ifAdmitted p r = .fault f ↔ s.status = .running ∧ s.phase = p ∧ r = .fault f := by
  unfold State.ifAdmitted
  split <;> simp_all
  split_ifs <;> simp_all

/-! The schedule. -/

theorem State.nextOp_nil (h : s.schedule = []) : s.nextOp = (.tick, s) := by simp [State.nextOp, h]

theorem State.nextOp_cons {op : HostOp} {ops : List HostOp} (h : s.schedule = op :: ops) :
    s.nextOp = (op, s.setSchedule ops) := by simp [State.nextOp, h]

/-- The operation is performed in the same state but for the schedule. -/
theorem State.nextOp_state : s.nextOp.2 = s.setSchedule s.schedule.tail := by
  unfold State.nextOp
  split
  · next h => rw [h]; simp only [List.tail_nil]; rw [← h]; rfl
  · next h => rw [h]; rfl

theorem runOps_nil : runOps [] s = s := rfl

theorem runOps_cons (op : HostOp) (ops : List HostOp) : runOps (op :: ops) s = runOps ops (s.leftBy (perform op s)) := rfl

theorem runOps_append (l1 l2 : List HostOp) : runOps (l1 ++ l2) s = runOps l2 (runOps l1 s) := by
  induction l1 generalizing s with
  | nil => rfl
  | cons op l1 ih => simp only [List.cons_append, runOps_cons, ih]

end Sys2Proof.Machine
end

