-- ==== Sys2Proof/Laws/Exec.lean ====
section
/-! SUPPORT. What each instruction is in terms of the shared operations, so that a proof about one cites its line here
and the lemmas of those operations. -/

namespace Sys2Proof.Machine

variable (s : State) (x y n : Nibble) (nn : Byte) (nnn : Addr12)

@[simp] theorem exec_cls : exec .cls s = .next ((s.setDisp Display.blank).setClearFlag true) := rfl
@[simp] theorem exec_sys : exec (.sys nn) s = .next s := rfl
@[simp] theorem exec_jp : exec (.jp nnn) s = .next (s.setPc (addressOf nnn)) := rfl
@[simp] theorem exec_seImm : exec (.seImm x nn) s = .next (s.skipIf (s.readV x == nn)) := rfl
@[simp] theorem exec_sneImm : exec (.sneImm x nn) s = .next (s.skipIf (s.readV x != nn)) := rfl
@[simp] theorem exec_seReg : exec (.seReg x y) s = .next (s.skipIf (s.readV x == s.readV y)) := rfl
@[simp] theorem exec_sneReg : exec (.sneReg x y) s = .next (s.skipIf (s.readV x != s.readV y)) := rfl
@[simp] theorem exec_ldImm : exec (.ldImm x nn) s = .next (s.writeV x nn) := rfl
@[simp] theorem exec_addImm : exec (.addImm x nn) s = .next (s.writeV x (s.readV x + nn)) := rfl
@[simp] theorem exec_ldReg : exec (.ldReg x y) s = .next (s.writeV x (s.readV y)) := rfl
@[simp] theorem exec_orReg : exec (.orReg x y) s = .next (s.writeV x (s.readV x ||| s.readV y)) := rfl
@[simp] theorem exec_andReg : exec (.andReg x y) s = .next (s.writeV x (s.readV x &&& s.readV y)) := rfl
@[simp] theorem exec_xorReg : exec (.xorReg x y) s = .next (s.writeV x (s.readV x ^^^ s.readV y)) := rfl
@[simp] theorem exec_addReg : exec (.addReg x y) s = .next (s.flaggedSum x y carryFlag addResult) := rfl
@[simp] theorem exec_subReg : exec (.subReg x y) s = .next (s.flaggedReread x y greaterFlag subResult) := rfl
@[simp] theorem exec_subnReg : exec (.subnReg x y) s =
    .next (s.flaggedReread x y (fun vx vy => greaterFlag vy vx) (fun vx vy => subResult vy vx)) := rfl
@[simp] theorem exec_shr : exec (.shr x y) s =
    .next (s.flaggedReread x x (fun vx _ => lowBitFlag vx) (fun vx _ => shrResult vx)) := rfl
@[simp] theorem exec_shl : exec (.shl x y) s =
    .next (s.flaggedReread x x (fun vx _ => lowBitFlag vx) (fun vx _ => shlResult vx)) := rfl
@[simp] theorem exec_ldI : exec (.ldI nnn) s = .next (s.setI (addressOf nnn)) := rfl
@[simp] theorem exec_jpV0 : exec (.jpV0 nnn) s = .next (s.setPc (s.jumpV0Target nnn)) := rfl
@[simp] theorem exec_rnd : exec (.rnd x nn) s = .next (s.countDraw.writeV x (Config.randomByte s.draws &&& nn)) := rfl
@[simp] theorem exec_ldVxDt : exec (.ldVxDt x) s = .next (s.writeV x s.dt) := rfl
@[simp] theorem exec_ldDtVx : exec (.ldDtVx x) s = .next (s.setDt (s.readV x)) := rfl
@[simp] theorem exec_ldStVx : exec (.ldStVx x) s = .next (s.setSt (s.readV x)) := rfl
@[simp] theorem exec_addI : exec (.addI x) s = .next (s.setI (s.indexPlus (s.readV x))) := rfl
@[simp] theorem exec_ldF : exec (.ldF x) s = .next (s.setI (glyphAddr (s.readV x))) := rfl
@[simp] theorem exec_unimplemented (op : Word) :
    exec (.unimplemented op) s = .next (s.emit (.unimplemented (s.pc - 2#16) op)) := rfl

/-! The instructions with two outcomes: one line for the checked operation, one for each side of the others. -/

theorem exec_skp : exec (.skp x) s = s.keySkip x (.skp x) true := rfl
theorem exec_sknp : exec (.sknp x) s = s.keySkip x (.sknp x) false := rfl
theorem exec_ldB : exec (.ldB x) s =
    s.checkedIndex 3 (.ldB x) (s.setMem (s.mem.writeBytes s.i.toNat (decimalDigits (s.readV x)))) := rfl
theorem exec_ldMemVx : exec (.ldMemVx x) s =
    s.checkedIndex (x.toNat + 1) (.ldMemVx x) (s.setMem (s.storeRegs (x.toNat + 1))) := rfl
theorem exec_ldVxMem : exec (.ldVxMem x) s =
    s.checkedIndex (x.toNat + 1) (.ldVxMem x) (s.loadRegs (x.toNat + 1)) := rfl
theorem exec_drw : exec (.drw x y n) s = s.checkedIndex n.toNat (.drw x y n)
    (s.finishDraw (s.drawSprite ((s.readV x).toNat % 64) ((s.readV y).toNat % 32) n.toNat)) := rfl

theorem exec_call_next (h : s.sp.val < 16) : exec (.call nnn) s =
    .next ((s.setStack (s.stack.set s.sp.val s.pc h) ⟨s.sp.val + 1, by omega⟩).setPc (addressOf nnn)) := by
  simp only [exec, execCall, s.push_eq_some h]

theorem exec_call_fault (h : s.sp = 16) :
    exec (.call nnn) s = .fault (.stackOverflow (s.pc - 2#16) (encode (.call nnn))) := by
  simp only [exec, execCall, s.push_eq_none.mpr h]; rfl

theorem exec_ret_next (h : s.sp.val ≠ 0) : exec .ret s =
    .next ((s.setStack s.stack ⟨s.sp.val - 1, by omega⟩).setPc (s.stack[s.sp.val - 1]'(by omega))) := by
  simp only [exec, execRet, s.pop_eq_some h]

theorem exec_ret_fault (h : s.sp = 0) : exec .ret s = .fault (.stackUnderflow (s.pc - 2#16) (encode .ret)) := by
  simp only [exec, execRet, s.pop_eq_none.mpr h]; rfl

theorem exec_ldVxKey_some {k : Nat} (h : s.firstKey? = some k) :
    exec (.ldVxKey x) s = .next (s.writeV x (BitVec.ofNat 8 k)) := by
  simp only [exec, execLdVxKey, h]

theorem exec_ldVxKey_none (h : s.firstKey? = none) : exec (.ldVxKey x) s = .next s.rewind := by
  simp only [exec, execLdVxKey, h]

end Sys2Proof.Machine
end

