-- ==== Sys2Proof/Laws/Flags.lean ====
section
/-! SUPPORT. The flag-writing ALU operations: they write V[x] and VF and nothing else, and where neither operand is VF
they give one result under every VF_ALIAS_ORDER (42_alu.md R132). -/

namespace Sys2Proof.Machine

variable (s : State)

/-- A register write changes that register only. -/
theorem State.onlyRegs_writeV {rs : List Nibble} {x : Nibble} (b : Byte) (h : x ∈ rs) : OnlyRegs rs s (s.writeV x b) := by
  refine ⟨fun p hp => ?_, fun r hr => s.readV_writeV_ne b (fun e => hr (e ▸ h))⟩
  cases p <;> first | (exact absurd (List.mem_singleton.mpr rfl) hp) | simp [Part.same]

/-- Changes to the same registers compose. -/
theorem OnlyRegs.trans {rs : List Nibble} {s t u : State} (h1 : OnlyRegs rs s t) (h2 : OnlyRegs rs t u) :
    OnlyRegs rs s u := by
  refine ⟨fun p hp => ?_, fun r hr => (h2.2 r hr).trans (h1.2 r hr)⟩
  have e1 := h1.1 p hp
  have e2 := h2.1 p hp
  cases p <;> simp_all [Part.same]

/-- Two register writes change those two registers only. -/
theorem State.onlyRegs_writeV_writeV (x y : Nibble) (a b : Byte) {rs : List Nibble} (hx : x ∈ rs) (hy : y ∈ rs) :
    OnlyRegs rs s ((s.writeV x a).writeV y b) :=
  (s.onlyRegs_writeV a hx).trans ((s.writeV x a).onlyRegs_writeV b hy)

/-- The flag-writing operations write no piece of the state but the registers. -/
theorem State.flaggedSum_v (x y : Nibble) (flag res : Byte → Byte → Byte) :
    ∃ w, s.flaggedSum x y flag res = { s with v := w } := by
  unfold State.flaggedSum
  split <;> exact ⟨_, rfl⟩

theorem State.flaggedReread_v (x y : Nibble) (flag res : Byte → Byte → Byte) :
    ∃ w, s.flaggedReread x y flag res = { s with v := w } := by
  unfold State.flaggedReread
  split <;> exact ⟨_, rfl⟩

theorem State.flaggedSum_onlyRegs (x y : Nibble) (flag res : Byte → Byte → Byte) :
    OnlyRegs [x, 15#4] s (s.flaggedSum x y flag res) := by
  unfold State.flaggedSum State.flagThenResult State.resultThenFlag regF
  split <;> exact s.onlyRegs_writeV_writeV _ _ _ _ (by simp) (by simp)

theorem State.flaggedReread_onlyRegs (x y : Nibble) (flag res : Byte → Byte → Byte) :
    OnlyRegs [x, 15#4] s (s.flaggedReread x y flag res) := by
  unfold State.flaggedReread State.flagThenResult State.resultThenFlag regF
  split <;> exact s.onlyRegs_writeV_writeV _ _ _ _ (by simp) (by simp)

/-- Writes to different registers commute. -/
theorem State.writeV_comm {x y : Nibble} (a b : Byte) (h : x ≠ y) :
    (s.writeV x a).writeV y b = (s.writeV y b).writeV x a := by
  have hn : x.toNat ≠ y.toNat := fun e => h (BitVec.eq_of_toNat_eq e)
  simp [State.writeV, Vector.set_comm _ _ hn]

/-- The one result where x is not VF: the sum reads its operands before any write. -/
theorem State.flaggedSum_eq {x y : Nibble} (flag res : Byte → Byte → Byte) (hx : x ≠ 15#4) :
    s.flaggedSum x y flag res = s.flagThenResult x (flag (s.readV x) (s.readV y)) (res (s.readV x) (s.readV y)) := by
  unfold State.flaggedSum State.resultThenFlag
  split <;> first | rfl | exact s.writeV_comm _ _ hx

/-- The one result where neither operand is VF. -/
theorem State.flaggedReread_eq {x y : Nibble} (flag res : Byte → Byte → Byte) (hx : x ≠ 15#4) (hy : y ≠ 15#4) :
    s.flaggedReread x y flag res = s.flagThenResult x (flag (s.readV x) (s.readV y)) (res (s.readV x) (s.readV y)) := by
  unfold State.flaggedReread State.resultThenFlag
  split
  · simp only [regF, State.readV_writeV_ne _ _ hx, State.readV_writeV_ne _ _ hy]; rfl
  · rfl
  · exact s.writeV_comm _ _ hx

end Sys2Proof.Machine
end

