-- ==== Sys2Proof/Laws/PerInstr.lean ====
section
/-! SUPPORT. For each instruction: its word has the bits its row of the opcode map fixes (30_encoding.md R75). -/

namespace Sys2Proof.Laws.RowBits

/-- The mask and pattern of the row of an instruction (30_encoding.md R75). -/
def maskOf : Instr → Word × Word
  | .cls => (0xFFFF, 0x00E0)
  | .ret => (0xFFFF, 0x00EE)
  | .sys _ => (0xFF00, 0x0000)
  | .jp _ => (0xF000, 0x1000)
  | .call _ => (0xF000, 0x2000)
  | .seImm _ _ => (0xF000, 0x3000)
  | .sneImm _ _ => (0xF000, 0x4000)
  | .seReg _ _ => (0xF00F, 0x5000)
  | .sneReg _ _ => (0xF00F, 0x9000)
  | .ldImm _ _ => (0xF000, 0x6000)
  | .addImm _ _ => (0xF000, 0x7000)
  | .ldReg _ _ => (0xF00F, 0x8000)
  | .orReg _ _ => (0xF00F, 0x8001)
  | .andReg _ _ => (0xF00F, 0x8002)
  | .xorReg _ _ => (0xF00F, 0x8003)
  | .addReg _ _ => (0xF00F, 0x8004)
  | .subReg _ _ => (0xF00F, 0x8005)
  | .subnReg _ _ => (0xF00F, 0x8007)
  | .shr _ _ => (0xF00F, 0x8006)
  | .shl _ _ => (0xF00F, 0x800E)
  | .ldI _ => (0xF000, 0xA000)
  | .jpV0 _ => (0xF000, 0xB000)
  | .rnd _ _ => (0xF000, 0xC000)
  | .drw _ _ _ => (0xF000, 0xD000)
  | .skp _ => (0xF0FF, 0xE09E)
  | .sknp _ => (0xF0FF, 0xE0A1)
  | .ldVxDt _ => (0xF0FF, 0xF007)
  | .ldVxKey _ => (0xF0FF, 0xF00A)
  | .ldDtVx _ => (0xF0FF, 0xF015)
  | .ldStVx _ => (0xF0FF, 0xF018)
  | .addI _ => (0xF0FF, 0xF01E)
  | .ldF _ => (0xF0FF, 0xF029)
  | .ldB _ => (0xF0FF, 0xF033)
  | .ldMemVx _ => (0xF0FF, 0xF055)
  | .ldVxMem _ => (0xF0FF, 0xF065)
  | .unimplemented _ => (0x0000, 0x0000)

/-- The word of the instruction agrees with its row on the bits the row fixes. -/
def Statement (i : Instr) : Prop := encode i &&& (maskOf i).1 = (maskOf i).2

/-- Two words with the same bits are the same word. -/
theorem word_ext {a b : Word} (h : ∀ k : Fin 16, a.getLsbD k.val = b.getLsbD k.val) : a = b :=
  BitVec.eq_of_getLsbD_eq fun k hk => h ⟨k, hk⟩

theorem cls : Statement (.cls) := by unfold Statement; decide

theorem ret : Statement (.ret) := by unfold Statement; decide

theorem sys (nn : Byte) : Statement (.sys nn) := by
  refine word_ext fun k => ?_
  fin_cases k <;> simp only [encode, maskOf, BitVec.getLsbD_and, BitVec.getLsbD_append] <;> simp

theorem jp (nnn : Addr12) : Statement (.jp nnn) := by
  refine word_ext fun k => ?_
  fin_cases k <;> simp only [encode, maskOf, BitVec.getLsbD_and, BitVec.getLsbD_append] <;> simp

theorem call (nnn : Addr12) : Statement (.call nnn) := by
  refine word_ext fun k => ?_
  fin_cases k <;> simp only [encode, maskOf, BitVec.getLsbD_and, BitVec.getLsbD_append] <;> simp

theorem seImm (x : Nibble) (nn : Byte) : Statement (.seImm x nn) := by
  refine word_ext fun k => ?_
  fin_cases k <;> simp only [encode, maskOf, BitVec.getLsbD_and, BitVec.getLsbD_append] <;> simp

theorem sneImm (x : Nibble) (nn : Byte) : Statement (.sneImm x nn) := by
  refine word_ext fun k => ?_
  fin_cases k <;> simp only [encode, maskOf, BitVec.getLsbD_and, BitVec.getLsbD_append] <;> simp

theorem seReg (x y : Nibble) : Statement (.seReg x y) := by
  refine word_ext fun k => ?_
  fin_cases k <;> simp only [encode, maskOf, BitVec.getLsbD_and, BitVec.getLsbD_append] <;> simp

theorem sneReg (x y : Nibble) : Statement (.sneReg x y) := by
  refine word_ext fun k => ?_
  fin_cases k <;> simp only [encode, maskOf, BitVec.getLsbD_and, BitVec.getLsbD_append] <;> simp

theorem ldImm (x : Nibble) (nn : Byte) : Statement (.ldImm x nn) := by
  refine word_ext fun k => ?_
  fin_cases k <;> simp only [encode, maskOf, BitVec.getLsbD_and, BitVec.getLsbD_append] <;> simp

theorem addImm (x : Nibble) (nn : Byte) : Statement (.addImm x nn) := by
  refine word_ext fun k => ?_
  fin_cases k <;> simp only [encode, maskOf, BitVec.getLsbD_and, BitVec.getLsbD_append] <;> simp

theorem ldReg (x y : Nibble) : Statement (.ldReg x y) := by
  refine word_ext fun k => ?_
  fin_cases k <;> simp only [encode, maskOf, BitVec.getLsbD_and, BitVec.getLsbD_append] <;> simp

theorem orReg (x y : Nibble) : Statement (.orReg x y) := by
  refine word_ext fun k => ?_
  fin_cases k <;> simp only [encode, maskOf, BitVec.getLsbD_and, BitVec.getLsbD_append] <;> simp

theorem andReg (x y : Nibble) : Statement (.andReg x y) := by
  refine word_ext fun k => ?_
  fin_cases k <;> simp only [encode, maskOf, BitVec.getLsbD_and, BitVec.getLsbD_append] <;> simp

theorem xorReg (x y : Nibble) : Statement (.xorReg x y) := by
  refine word_ext fun k => ?_
  fin_cases k <;> simp only [encode, maskOf, BitVec.getLsbD_and, BitVec.getLsbD_append] <;> simp

theorem addReg (x y : Nibble) : Statement (.addReg x y) := by
  refine word_ext fun k => ?_
  fin_cases k <;> simp only [encode, maskOf, BitVec.getLsbD_and, BitVec.getLsbD_append] <;> simp

theorem subReg (x y : Nibble) : Statement (.subReg x y) := by
  refine word_ext fun k => ?_
  fin_cases k <;> simp only [encode, maskOf, BitVec.getLsbD_and, BitVec.getLsbD_append] <;> simp

theorem subnReg (x y : Nibble) : Statement (.subnReg x y) := by
  refine word_ext fun k => ?_
  fin_cases k <;> simp only [encode, maskOf, BitVec.getLsbD_and, BitVec.getLsbD_append] <;> simp

theorem shr (x y : Nibble) : Statement (.shr x y) := by
  refine word_ext fun k => ?_
  fin_cases k <;> simp only [encode, maskOf, BitVec.getLsbD_and, BitVec.getLsbD_append] <;> simp

theorem shl (x y : Nibble) : Statement (.shl x y) := by
  refine word_ext fun k => ?_
  fin_cases k <;> simp only [encode, maskOf, BitVec.getLsbD_and, BitVec.getLsbD_append] <;> simp

theorem ldI (nnn : Addr12) : Statement (.ldI nnn) := by
  refine word_ext fun k => ?_
  fin_cases k <;> simp only [encode, maskOf, BitVec.getLsbD_and, BitVec.getLsbD_append] <;> simp

theorem jpV0 (nnn : Addr12) : Statement (.jpV0 nnn) := by
  refine word_ext fun k => ?_
  fin_cases k <;> simp only [encode, maskOf, BitVec.getLsbD_and, BitVec.getLsbD_append] <;> simp

theorem rnd (x : Nibble) (nn : Byte) : Statement (.rnd x nn) := by
  refine word_ext fun k => ?_
  fin_cases k <;> simp only [encode, maskOf, BitVec.getLsbD_and, BitVec.getLsbD_append] <;> simp

theorem drw (x y n : Nibble) : Statement (.drw x y n) := by
  refine word_ext fun k => ?_
  fin_cases k <;> simp only [encode, maskOf, BitVec.getLsbD_and, BitVec.getLsbD_append] <;> simp

theorem skp (x : Nibble) : Statement (.skp x) := by
  refine word_ext fun k => ?_
  fin_cases k <;> simp only [encode, maskOf, BitVec.getLsbD_and, BitVec.getLsbD_append] <;> simp

theorem sknp (x : Nibble) : Statement (.sknp x) := by
  refine word_ext fun k => ?_
  fin_cases k <;> simp only [encode, maskOf, BitVec.getLsbD_and, BitVec.getLsbD_append] <;> simp

theorem ldVxDt (x : Nibble) : Statement (.ldVxDt x) := by
  refine word_ext fun k => ?_
  fin_cases k <;> simp only [encode, maskOf, BitVec.getLsbD_and, BitVec.getLsbD_append] <;> simp

theorem ldVxKey (x : Nibble) : Statement (.ldVxKey x) := by
  refine word_ext fun k => ?_
  fin_cases k <;> simp only [encode, maskOf, BitVec.getLsbD_and, BitVec.getLsbD_append] <;> simp

theorem ldDtVx (x : Nibble) : Statement (.ldDtVx x) := by
  refine word_ext fun k => ?_
  fin_cases k <;> simp only [encode, maskOf, BitVec.getLsbD_and, BitVec.getLsbD_append] <;> simp

theorem ldStVx (x : Nibble) : Statement (.ldStVx x) := by
  refine word_ext fun k => ?_
  fin_cases k <;> simp only [encode, maskOf, BitVec.getLsbD_and, BitVec.getLsbD_append] <;> simp

theorem addI (x : Nibble) : Statement (.addI x) := by
  refine word_ext fun k => ?_
  fin_cases k <;> simp only [encode, maskOf, BitVec.getLsbD_and, BitVec.getLsbD_append] <;> simp

theorem ldF (x : Nibble) : Statement (.ldF x) := by
  refine word_ext fun k => ?_
  fin_cases k <;> simp only [encode, maskOf, BitVec.getLsbD_and, BitVec.getLsbD_append] <;> simp

theorem ldB (x : Nibble) : Statement (.ldB x) := by
  refine word_ext fun k => ?_
  fin_cases k <;> simp only [encode, maskOf, BitVec.getLsbD_and, BitVec.getLsbD_append] <;> simp

theorem ldMemVx (x : Nibble) : Statement (.ldMemVx x) := by
  refine word_ext fun k => ?_
  fin_cases k <;> simp only [encode, maskOf, BitVec.getLsbD_and, BitVec.getLsbD_append] <;> simp

theorem ldVxMem (x : Nibble) : Statement (.ldVxMem x) := by
  refine word_ext fun k => ?_
  fin_cases k <;> simp only [encode, maskOf, BitVec.getLsbD_and, BitVec.getLsbD_append] <;> simp

theorem unimplemented (op : Word) : Statement (.unimplemented op) := by simp [Statement, maskOf, encode]

end Sys2Proof.Laws.RowBits
end

