-- ==== Sys2Proof/Tests/Slice0.lean ====
section
/-! SUPPORT. Tests of the model, and for each statement with hypotheses a state and operands that meet them. Expected
results are the vectors of 95_test_vectors.md (V-… rows, E… examples), not the model's own answers. -/

namespace Sys2Proof.Tests

open Sys2Proof.Machine

/-! ## Helpers -/

/-- A booted core with nothing in memory. -/
def booted : State := State.reset.setPhase .loaded

/-- Set registers. -/
def withV (l : List (Nibble × Byte)) (s : State) : State := l.foldl (fun s p => s.writeV p.1 p.2) s

/-- Set bytes from an address on. -/
def withBytes (a : Nat) (bs : List Byte) (s : State) : State := s.setMem (s.mem.writeBytes a bs)

/-- A call stack of the given depth, every entry 0x202. -/
def withDepth (n : Fin 17) (s : State) : State := s.setStack (Vector.replicate 16 0x202#16) n

/-- Hold keys. -/
def withKeys (l : List (Fin 16)) (s : State) : State := s.setKeys (l.foldl (fun k i => k.set i.val true) s.keys)

/-- Set pixels. -/
def withPixels (l : List (Fin 64 × Fin 32)) (s : State) : State :=
  s.setDisp (l.foldl (fun d p => d.toggle p.1 p.2) s.disp)

/-- The same core under another VF_ALIAS_ORDER. -/
def under (o : VfAliasOrder) (s : State) : State := s.withOrder o

/-- One step with this word where it is fetched. -/
def run (w : Word) (s : State) : Result := step (s.withFetchWord 16 w.toNat)

/-- Does the operation go on to a state with this property? -/
def goes (r : Result) (p : State → Bool) : Bool :=
  match r with
  | .next t => p t
  | .fault _ => false
  | .refused _ => false

/-- Does the operation fault with this record? -/
def faults (r : Result) (f : Fault) : Bool :=
  match r with
  | .next _ => false
  | .fault g => decide (g = f)
  | .refused _ => false

/-- Is the operation refused for this reason? -/
def refuses (r : Result) (x : Refusal) : Bool :=
  match r with
  | .next _ => false
  | .fault _ => false
  | .refused y => decide (y = x)

/-- V[x] is b and `pc` is past one instruction. -/
def holds (x : Nibble) (b : Byte) (t : State) : Bool := t.readV x == b && t.pc == 0x202#16

/-- V[x] and VF. -/
def holdsF (x : Nibble) (b f : Byte) (t : State) : Bool := holds x b t && t.readV 15 == f

/-! ## Well-formedness -/

theorem test_wf_refuses_sys_E0 : (Instr.sys 0xE0).wf = false := by decide
theorem test_wf_refuses_sys_EE : (Instr.sys 0xEE).wf = false := by decide
theorem test_wf_refuses_implemented_word : (Instr.unimplemented 0x6A42).wf = false := by decide
theorem test_wf_accepts : (Instr.sys 0xE1).wf = true ∧ (Instr.unimplemented 0x5121).wf = true := by decide

/-! ## Decoding: the words written out from the formats of 30_encoding.md R72 and the patterns of R75 -/

theorem test_decode_flow :
    decode 0b0000000011101110#16 = .ret ∧ decode 0b0000000001010011#16 = .sys 0b01010011 ∧
    decode 0b0001001000110100#16 = .jp 0b001000110100 ∧ decode 0b0010101111001101#16 = .call 0b101111001101 ∧
    decode 0b0011010101000010#16 = .seImm 0b0101 0b01000010 ∧ decode 0b0100010101000010#16 = .sneImm 0b0101 0b01000010 ∧
    decode 0b0101000100100000#16 = .seReg 0b0001 0b0010 ∧ decode 0b1001000100100000#16 = .sneReg 0b0001 0b0010 ∧
    decode 0b1011001100000001#16 = .jpV0 0b001100000001 := by decide

theorem test_decode_immediates :
    decode 0b0110101001111110#16 = .ldImm 0b1010 0b01111110 ∧ decode 0b0111001100001010#16 = .addImm 0b0011 0b00001010 ∧
    decode 0b1100001100001111#16 = .rnd 0b0011 0b00001111 := by decide

theorem test_decode_registers :
    decode 0b1000000100100000#16 = .ldReg 0b0001 0b0010 ∧ decode 0b1000000100100001#16 = .orReg 0b0001 0b0010 ∧
    decode 0b1000000100100010#16 = .andReg 0b0001 0b0010 ∧ decode 0b1000000100100011#16 = .xorReg 0b0001 0b0010 ∧
    decode 0b1000000100100100#16 = .addReg 0b0001 0b0010 ∧ decode 0b1000000100100101#16 = .subReg 0b0001 0b0010 ∧
    decode 0b1000000100100111#16 = .subnReg 0b0001 0b0010 ∧ decode 0b1000000100100110#16 = .shr 0b0001 0b0010 ∧
    decode 0b1000000100101110#16 = .shl 0b0001 0b0010 := by decide

theorem test_decode_index :
    decode 0b1010010110010110#16 = .ldI 0b010110010110 ∧ decode 0b1111001000011110#16 = .addI 0b0010 ∧
    decode 0b1111001000101001#16 = .ldF 0b0010 ∧ decode 0b1111001000110011#16 = .ldB 0b0010 ∧
    decode 0b1111001001010101#16 = .ldMemVx 0b0010 ∧ decode 0b1111001001100101#16 = .ldVxMem 0b0010 := by decide

theorem test_decode_display :
    decode 0b0000000011100000#16 = .cls ∧ decode 0b1101000100100011#16 = .drw 0b0001 0b0010 0b0011 := by decide

theorem test_decode_keys_timers :
    decode 0b1110010010011110#16 = .skp 0b0100 ∧ decode 0b1110010010100001#16 = .sknp 0b0100 ∧
    decode 0b1111010000000111#16 = .ldVxDt 0b0100 ∧ decode 0b1111010000001010#16 = .ldVxKey 0b0100 ∧
    decode 0b1111010000010101#16 = .ldDtVx 0b0100 ∧ decode 0b1111010000011000#16 = .ldStVx 0b0100 := by decide

theorem test_decode_unimplemented :
    decode 0b0000000100100011#16 = .unimplemented 0x0123 ∧ decode 0b0101000100100001#16 = .unimplemented 0x5121 ∧
    decode 0b1000000100101000#16 = .unimplemented 0x8128 ∧ decode 0b1001000100101111#16 = .unimplemented 0x912F ∧
    decode 0b1110000110100010#16 = .unimplemented 0xE1A2 ∧ decode 0b1111000111111111#16 = .unimplemented 0xF1FF := by decide

theorem test_decode_bytes_big_endian : decodeBytes [0x12, 0x34, 0xAB] = .ok (.jp 0x234, [0xAB]) := by decide
theorem test_decode_bytes_truncated : decodeBytes [0x12] = .error .truncated := by decide
theorem test_decode_table_word : decodeTableWord 16 0x8124 = some (.addReg 1 2) := by decide

/-! ## The cycle and control flow (V-CYC, V-FLOW) -/

theorem test_fetch_word_runs : goes (run 0x6A7F State.reset) (fun t => holds 10 0x7F t && t.schedule == []) = true := by
  decide
theorem test_sys_is_ignored : goes (run 0x00FF booted) (fun t => t.pc == 0x202#16 && t.events == []) = true := by decide
theorem test_unimplemented_emits :
    goes (run 0x0123 booted) (fun t => t.pc == 0x202#16 && t.events == [.unimplemented 0x200 0x0123]) = true := by decide
theorem test_fetch_at_last_word :
    goes (run 0x6007 (booted.setPc 0xFFE)) (fun t => t.readV 0 == 7#8 && t.pc == 0x1000#16) = true := by decide
theorem test_fetch_past_memory : faults (step (booted.setPc 0x1000)) (.fetchOutOfRange 0x1000 0x1000) = true := by decide
theorem test_fetch_half_past_memory :
    faults (step (booted.setPc 0xFFF)) (.fetchOutOfRange 0xFFF 0x1000) = true := by decide
theorem test_odd_pc : goes (run 0x6A05 (booted.setPc 0x201)) (fun t => t.readV 10 == 5#8 && t.pc == 0x203#16) = true := by
  decide
theorem test_jp : goes (run 0x1234 booted) (fun t => t.pc == 0x234#16) = true := by decide
theorem test_call :
    goes (run 0x2300 booted) (fun t => t.pc == 0x300#16 && t.sp == 1 && t.stack[0] == 0x202#16) = true := by decide
theorem test_call_overflow :
    faults (run 0x2300 (withDepth 16 booted)) (.stackOverflow 0x200 0x2300) = true := by decide
theorem test_ret :
    goes (run 0x00EE (withDepth 1 (booted.setPc 0x300)))
      (fun t => t.pc == 0x202#16 && t.sp == 0 && t.stack[0] == 0x202#16) = true := by decide
theorem test_ret_underflow : faults (run 0x00EE booted) (.stackUnderflow 0x200 0x00EE) = true := by decide
theorem test_seImm_skips : goes (run 0x3442 (withV [(4, 0x42)] booted)) (fun t => t.pc == 0x204#16) = true := by decide
theorem test_seImm_does_not_skip :
    goes (run 0x3442 (withV [(4, 0x41)] booted)) (fun t => t.pc == 0x202#16) = true := by decide
theorem test_sneImm_does_not_skip :
    goes (run 0x4542 (withV [(5, 0x42)] booted)) (fun t => t.pc == 0x202#16) = true := by decide
theorem test_sneImm_skips : goes (run 0x4542 (withV [(5, 0x41)] booted)) (fun t => t.pc == 0x204#16) = true := by decide
theorem test_seReg_skips :
    goes (run 0x5120 (withV [(1, 9), (2, 9)] booted)) (fun t => t.pc == 0x204#16) = true := by decide
theorem test_seReg_does_not_skip :
    goes (run 0x5120 (withV [(1, 9), (2, 8)] booted)) (fun t => t.pc == 0x202#16) = true := by decide
theorem test_sneReg_skips :
    goes (run 0x9120 (withV [(1, 9), (2, 8)] booted)) (fun t => t.pc == 0x204#16) = true := by decide
theorem test_sneReg_does_not_skip :
    goes (run 0x9120 (withV [(1, 9), (2, 9)] booted)) (fun t => t.pc == 0x202#16) = true := by decide
theorem test_jpV0 : goes (run 0xB300 (withV [(0, 0x10), (3, 0x77)] booted)) (fun t => t.pc == 0x310#16) = true := by decide
theorem test_jpV0_is_exact : goes (run 0xBFFF (withV [(0, 0xFF)] booted)) (fun t => t.pc == 0x10FE#16) = true := by decide

/-! ## Registers and arithmetic (V-ALU) -/

theorem test_addImm_wraps_without_flag :
    goes (run 0x730A (withV [(3, 250), (15, 0x77)] booted)) (holdsF 3 4 0x77) = true := by decide
theorem test_ldReg : goes (run 0x8120 (withV [(1, 3), (2, 0xC5)] booted)) (holds 1 0xC5) = true := by decide
theorem test_orReg_keeps_vf :
    goes (run 0x8121 (withV [(1, 0xF0), (2, 0x0F), (15, 5)] booted)) (holdsF 1 0xFF 5) = true := by decide
theorem test_andReg : goes (run 0x8122 (withV [(1, 0xF0), (2, 0x3C)] booted)) (holds 1 0x30) = true := by decide
theorem test_xorReg : goes (run 0x8123 (withV [(1, 0xF0), (2, 0x3C)] booted)) (holds 1 0xCC) = true := by decide
theorem test_addReg_carry :
    goes (run 0x8124 (withV [(1, 200), (2, 100)] booted)) (holdsF 1 44 1) = true := by decide
theorem test_addReg_no_carry :
    goes (run 0x8124 (withV [(1, 100), (2, 100), (15, 1)] booted)) (holdsF 1 200 0) = true := by decide
theorem test_subReg_borrow : goes (run 0x8125 (withV [(1, 5), (2, 10)] booted)) (holdsF 1 251 0) = true := by decide
theorem test_subReg_equal_gives_0 :
    goes (run 0x8125 (withV [(1, 7), (2, 7)] booted)) (holdsF 1 0 0) = true := by decide
theorem test_subnReg : goes (run 0x8127 (withV [(1, 5), (2, 10)] booted)) (holdsF 1 5 1) = true := by decide
theorem test_subnReg_borrow : goes (run 0x8127 (withV [(1, 10), (2, 5)] booted)) (holdsF 1 251 0) = true := by decide
theorem test_shr_ignores_y : goes (run 0x8126 (withV [(1, 0x81), (2, 0xFF)] booted)) (holdsF 1 0x40 1) = true := by decide
theorem test_shl_reports_low_bit : goes (run 0x812E (withV [(1, 0x81)] booted)) (holdsF 1 0x02 1) = true := by decide
theorem test_shl_high_bit_is_lost : goes (run 0x812E (withV [(1, 0x80)] booted)) (holdsF 1 0x00 0) = true := by decide
theorem test_rnd_masks_the_draw : (booted.randomAnd 0xAB 3 0x0F).readV 3 = 0x0B#8 := by decide
theorem test_rnd_counts_the_draw : goes (run 0xC300 booted) (fun t => t.draws == 1 && t.pc == 0x202#16) = true := by decide

/-! VF as an operand (V-ALU 27-35): AS_LISTED, SNAPSHOT_RESULT_LAST, SNAPSHOT_FLAG_LAST. -/

theorem test_alias_addReg :
    goes (run 0x8F14 (under .asListed (withV [(15, 200), (1, 100)] booted))) (holds 15 44) = true ∧
    goes (run 0x8F14 (under .snapshotResultLast (withV [(15, 200), (1, 100)] booted))) (holds 15 44) = true ∧
    goes (run 0x8F14 (under .snapshotFlagLast (withV [(15, 200), (1, 100)] booted))) (holds 15 1) = true := by decide
theorem test_alias_subReg_x :
    goes (run 0x8F15 (under .asListed (withV [(15, 10), (1, 3)] booted))) (holds 15 254) = true ∧
    goes (run 0x8F15 (under .snapshotResultLast (withV [(15, 10), (1, 3)] booted))) (holds 15 7) = true ∧
    goes (run 0x8F15 (under .snapshotFlagLast (withV [(15, 10), (1, 3)] booted))) (holds 15 1) = true := by decide
theorem test_alias_subReg_y :
    goes (run 0x81F5 (under .asListed (withV [(1, 10), (15, 3)] booted))) (holdsF 1 9 1) = true ∧
    goes (run 0x81F5 (under .snapshotResultLast (withV [(1, 10), (15, 3)] booted))) (holdsF 1 7 1) = true ∧
    goes (run 0x81F5 (under .snapshotFlagLast (withV [(1, 10), (15, 3)] booted))) (holdsF 1 7 1) = true := by decide
theorem test_alias_subnReg_x :
    goes (run 0x8F17 (under .asListed (withV [(15, 3), (1, 10)] booted))) (holds 15 9) = true ∧
    goes (run 0x8F17 (under .snapshotResultLast (withV [(15, 3), (1, 10)] booted))) (holds 15 7) = true ∧
    goes (run 0x8F17 (under .snapshotFlagLast (withV [(15, 3), (1, 10)] booted))) (holds 15 1) = true := by decide
theorem test_alias_subnReg_y :
    goes (run 0x81F7 (under .asListed (withV [(1, 3), (15, 10)] booted))) (holdsF 1 254 1) = true ∧
    goes (run 0x81F7 (under .snapshotFlagLast (withV [(1, 3), (15, 10)] booted))) (holdsF 1 7 1) = true := by decide
theorem test_alias_shr :
    goes (run 0x8F06 (under .asListed (withV [(15, 5)] booted))) (holds 15 0) = true ∧
    goes (run 0x8F06 (under .snapshotResultLast (withV [(15, 5)] booted))) (holds 15 2) = true ∧
    goes (run 0x8F06 (under .snapshotFlagLast (withV [(15, 5)] booted))) (holds 15 1) = true := by decide
theorem test_alias_shl :
    goes (run 0x8F0E (under .asListed (withV [(15, 0x83)] booted))) (holds 15 2) = true ∧
    goes (run 0x8F0E (under .snapshotResultLast (withV [(15, 0x83)] booted))) (holds 15 6) = true ∧
    goes (run 0x8F0E (under .snapshotFlagLast (withV [(15, 0x83)] booted))) (holds 15 1) = true := by decide

/-! ## The index register and memory (V-IDX) -/

theorem test_ldI : goes (run 0xAFFF booted) (fun t => t.i == 0xFFF#16) = true := by decide
theorem test_addI_passes_12_bits :
    goes (run 0xF21E (withV [(2, 2)] (booted.setI 0xFFF))) (fun t => t.i == 0x1001#16 && t.readV 15 == 0#8) = true := by
  decide
theorem test_addI_wraps : goes (run 0xF21E (withV [(2, 1)] (booted.setI 0xFFFF))) (fun t => t.i == 0#16) = true := by decide
theorem test_ldF : goes (run 0xF029 (withV [(0, 0x0A)] booted)) (fun t => t.i == 0x32#16) = true := by decide
theorem test_ldF_is_not_masked : goes (run 0xF029 (withV [(0, 0xFF)] booted)) (fun t => t.i == 0x4FB#16) = true := by decide
theorem test_ldB :
    goes (run 0xF033 (withV [(0, 254)] (booted.setI 0x300)))
      (fun t => t.mem.readBytes 0x300 3 == [2#8, 5#8, 4#8] && t.i == 0x300#16) = true := by decide
theorem test_ldB_past_memory :
    faults (run 0xF033 (withV [(0, 7)] (booted.setI 0xFFE))) (.memoryOutOfRange 0x200 0xF033 0x1000) = true := by decide
theorem test_ldMemVx :
    goes (run 0xF255 (withV [(0, 1), (1, 2), (2, 3), (3, 4)] (booted.setI 0x400)))
      (fun t => t.mem.readBytes 0x400 4 == [1#8, 2#8, 3#8, 0#8] && t.i == 0x400#16) = true := by decide
theorem test_ldMemVx_past_memory :
    faults (run 0xF055 (booted.setI 0x1001)) (.memoryOutOfRange 0x200 0xF055 0x1001) = true := by decide
theorem test_ldVxMem :
    goes (run 0xF265 (withV [(3, 0x33)] (withBytes 0x300 [2, 5, 4, 9] (booted.setI 0x300))))
      (fun t => t.readV 0 == 2#8 && t.readV 1 == 5#8 && t.readV 2 == 4#8 && t.readV 3 == 0x33#8) = true := by decide
theorem test_ldVxMem_past_memory :
    faults (run 0xF265 (booted.setI 0xFFE)) (.memoryOutOfRange 0x200 0xF265 0x1000) = true := by decide

/-! ## The display (V-DISP) -/

theorem test_cls :
    goes (run 0x00E0 (withPixels [(3, 4)] booted)) (fun t => !t.disp.pixel 3 4 && t.clearFlag && !t.displayFlag) = true := by
  decide
theorem test_drw_wraps_and_leaves_flag :
    goes (run 0xD121 (withV [(1, 60), (15, 9)] (withBytes 0x300 [0xFF] (booted.setI 0x300))))
      (fun t => t.disp.pixel 60 0 && t.disp.pixel 63 0 && t.disp.pixel 0 0 && t.disp.pixel 3 0 && !t.disp.pixel 4 0 &&
        t.readV 15 == 0#8 && !t.displayFlag) = true := by decide
theorem test_drw_collides :
    goes (run 0xD121 (withPixels [(6, 1)] (withV [(1, 70), (2, 33)] (withBytes 0x300 [0x80] (booted.setI 0x300)))))
      (fun t => !t.disp.pixel 6 1 && t.readV 15 == 1#8 && t.displayFlag) = true := by decide
theorem test_drw_reads_vf_before_resetting_it :
    goes (run 0xD0F1 (withV [(0, 3), (15, 10)] (withBytes 0x300 [0x80] (booted.setI 0x300))))
      (fun t => t.disp.pixel 3 10 && t.readV 15 == 0#8) = true := by decide
theorem test_drw_no_rows :
    goes (run 0xD120 ((withV [(15, 9)] (booted.setI 0xFFFF)).setDisplayFlag true))
      (fun t => t.readV 15 == 0#8 && !t.displayFlag) = true := by decide
theorem test_drw_past_memory :
    faults (run 0xD122 (booted.setI 0xFFF)) (.memoryOutOfRange 0x200 0xD122 0x1000) = true := by decide

/-! ## Keys and timers (V-KEY) -/

theorem test_skp_held : goes (run 0xE19E (withKeys [7] (withV [(1, 7)] booted))) (fun t => t.pc == 0x204#16) = true := by decide
theorem test_skp_no_key : faults (run 0xE19E (withV [(1, 16)] booted)) (.keyIndexOutOfRange 0x200 0xE19E) = true := by decide
theorem test_sknp_not_held : goes (run 0xE1A1 (withV [(1, 7)] booted)) (fun t => t.pc == 0x204#16) = true := by decide
theorem test_sknp_held : goes (run 0xE1A1 (withKeys [7] (withV [(1, 7)] booted))) (fun t => t.pc == 0x202#16) = true := by
  decide
theorem test_ldVxKey_lowest : goes (run 0xF50A (withKeys [9, 3] booted)) (holds 5 3) = true := by decide
theorem test_ldVxKey_waits :
    goes (run 0xF50A (withV [(5, 0x44)] booted)) (fun t => t.pc == 0x200#16 && t.readV 5 == 0x44#8) = true := by decide
theorem test_ldVxDt : goes (run 0xF407 (booted.setDt 0x3C)) (holds 4 0x3C) = true := by decide
theorem test_ldDtVx : goes (run 0xF315 (withV [(3, 5)] booted)) (fun t => t.dt == 5#8 && t.st == 0#8) = true := by decide
theorem test_ldStVx_emits_nothing :
    goes (run 0xF318 (booted.setSt 1)) (fun t => t.st == 0#8 && t.events == []) = true := by decide

/-! ## Host operations (V-KEY 13-15, V-HOST, E1, E2) -/

theorem test_tick_timers :
    goes (perform .tickTimers ((booted.setDt 255).setSt 2)) (fun t => t.dt == 254#8 && t.st == 1#8 && t.events == []) = true :=
  by decide
theorem test_tick_timers_sound_end :
    goes (perform .tickTimers (booted.setSt 1)) (fun t => t.dt == 0#8 && t.st == 0#8 && t.events == [.soundEnd]) = true := by
  decide
theorem test_load_fonts :
    goes (perform .loadFonts State.reset)
      (fun t => t.mem.readBytes 0 5 == [0xF0, 0x90, 0x90, 0x90, 0xF0] && t.mem.readBytes 75 6 == [0xF0, 0x80, 0xF0, 0x80, 0x80, 0]
        && decide (t.phase = .fontsLoaded)) = true := by decide
theorem test_load_rom :
    goes (perform (.loadRom [0x12, 0x34, 0xAB]) (State.reset.setPhase .fontsLoaded))
      (fun t => t.mem.readBytes 0x1FF 5 == [0, 0x12, 0x34, 0xAB, 0] && decide (t.phase = .loaded)) = true := by decide
theorem test_boot_order : refuses (perform .tick State.reset) .bootOrder = true ∧
    refuses (perform (.loadRom [0x00]) State.reset) .bootOrder = true := by decide
theorem test_key_set_bad_key : refuses (perform (.keySet 16 true) booted) .badKey = true := by decide
theorem test_key_set : goes (perform (.keySet 15 true) booted) (fun t => t.keys[15]) = true := by decide
theorem test_faulted_core : refuses (perform .tickTimers (booted.takeFault .romTooLarge)) .coreFaulted = true ∧
    (booted.takeFault .romTooLarge).statusView = some .romTooLarge := by decide
theorem test_reset_clear_flag :
    goes (perform .resetClearFlag (booted.setClearFlag true)) (fun t => !t.clearFlag) = true := by decide
theorem test_boots_from_reset :
    goes (step (State.reset.setSchedule [.loadFonts, .loadRom [0x60, 0x07]])) (fun t => decide (t.schedule = [.loadRom [0x60, 0x07]]))
      = true := by decide

/-! ## Memory -/

theorem test_reset_memory_wf : Memory.wf State.reset.mem ∧ Memory.inSpace State.reset.mem := by decide
theorem test_write_unlisted_removes : Memory.write [(3, 7#8), (5, 9#8)] 3 0#8 = [(5, 9#8)] := by decide
theorem test_write_sorts : Memory.write [(3, 7#8), (5, 9#8)] 4 1#8 = [(3, 7#8), (4, 1#8), (5, 9#8)] := by decide

/-! ## Witnesses: for each statement with hypotheses, states and operands that meet them, clause by clause, at the
boundaries of their ranges -/

/-- A word placed at `pc`, in a booted core. -/
def at200 (w : Word) (s : State) : State := s.setMem (s.mem.writeWord 0x200 w)

theorem witness_DecodeOfEncodeIsIdentity : (Instr.sys 0xFF).wf = true ∧ (Instr.drw 15 0 15).wf = true ∧
    (Instr.unimplemented 0x0FFF).wf = true := by decide
theorem witness_UnimplementedWordsAreThoseListed : decode 0x0FFF#16 = .unimplemented 0x0FFF ∧
    (0x1000#16).toNat / 4096 ∈ [1, 2, 3, 4, 6, 7, 10, 11, 12, 13] ∧
    (0xDFFF#16).toNat / 4096 ∈ [1, 2, 3, 4, 6, 7, 10, 11, 12, 13] := by decide
theorem witness_StepRunsTheDecodedInstruction :
    let s := withBytes 0xFFE [0x60, 0x07] (booted.setPc 0xFFE)
    s.status = .running ∧ s.phase = .loaded ∧ s.schedule.headD .tick = .tick ∧ s.pc.toNat + 1 < 4096 ∧
    decodeBytes [s.mem.read s.pc.toNat, s.mem.read (s.pc.toNat + 1)] = .ok (.ldImm 0 7, []) := by decide
theorem witness_FetchPastMemoryFaults : booted.status = .running ∧ booted.phase = .loaded ∧
    4096 ≤ (booted.setPc 0xFFF).pc.toNat + 1 ∧ 4096 ≤ (booted.setPc 0x10FE).pc.toNat + 1 := by decide
theorem witness_FetchIsBigEndian : (booted.setPc 0xFFE).pc.toNat + 1 < 4096 := by decide
theorem witness_FaultingOperationChangesOnlyStatus :
    faults (perform .tick (at200 0x00EE booted)) (.stackUnderflow 0x200 0x00EE) = true ∧
    refuses (perform .tick State.reset) .bootOrder = true := by decide
theorem witness_FaultRecordNamesTheInstruction :
    faults (perform .tick (booted.setPc 0xFFF)) (.fetchOutOfRange 0xFFF 4096) = true ∧
    faults (perform .tick (at200 0xF155 (booted.setI 0xFFF))) (.memoryOutOfRange 0x200 0xF155 4096) = true ∧
    faults (perform .tick (at200 0x2300 (withDepth 16 booted))) (.stackOverflow 0x200 0x2300) = true := by decide
theorem witness_InstructionsFaultExactlyAsListed :
    faultOf? .ret booted = some (.stackUnderflow 0x1FE 0x00EE) ∧ faultOf? .ret (withDepth 1 booted) = none ∧
    faultOf? (.ldB 0) (booted.setI 0xFFE) = some (.memoryOutOfRange 0x1FE 0xF033 4096) ∧
    faultOf? (.ldB 0) (booted.setI 0xFFD) = none := by decide
theorem witness_FaultedCoreIsFrozen : (booted.takeFault .romTooLarge).status = .faulted .romTooLarge ∧
    HostOp.tick.isRead = false ∧ HostOp.status.isRead = true := by decide
theorem witness_BootOrderIsEnforced : State.reset.status = .running ∧ HostOp.tick.phase? = some .loaded ∧
    State.reset.phase ≠ .loaded ∧ HostOp.flags.phase? = none := by decide
theorem witness_ReturnPopsTheStack : (withDepth 1 booted).sp.val = 0 + 1 ∧ (withDepth 16 booted).sp.val = 15 + 1 ∧
    booted.sp = 0 := by decide
theorem witness_CallPushesTheReturnAddress : booted.sp.val = 0 ∧ (withDepth 15 booted).sp.val = 15 ∧
    (withDepth 16 booted).sp = 16 := by decide
theorem witness_ReturnUndoesCall : ∃ t, exec (.call 0x300) booted = .next t ∧ t.stack = t.stack ∧ t.sp = t.sp :=
  ⟨_, rfl, rfl, rfl⟩
theorem witness_SixteenNestedCallsThenOverflow : booted.sp = 0 ∧ ([] : List Addr12).length ≤ 16 ∧
    (List.replicate 16 0x200#12).length = 16 := by decide
theorem witness_IgnoredWordsChangeNothing : (0xE1#8 : Byte) ≠ 0xE0#8 ∧ (0xE1#8 : Byte) ≠ 0xEE#8 := by decide
theorem witness_SkipsOnAnImmediate : 0x3F80#16 &&& 0xF000#16 = 0x3000#16 ∧ 0x4F80#16 &&& 0xF000#16 = 0x4000#16 := by decide
theorem witness_SkipsOnTwoRegisters : 0x51F0#16 &&& 0xF00F#16 = 0x5000#16 ∧ 0x91F0#16 &&& 0xF00F#16 = 0x9000#16 ∧
    nibble1 0x5121#16 = 5#4 ∧ nibble4 0x5121#16 ≠ 0#4 ∧ nibble1 0x912F#16 = 9#4 ∧ nibble4 0x912F#16 ≠ 0#4 := by decide
theorem witness_SkipsOnAKey : (booted.readV 1).toNat = 0 ∧ ((withV [(1, 15)] booted).readV 1).toNat = 15 ∧
    16 ≤ ((withV [(1, 16)] booted).readV 1).toNat := by decide
theorem witness_ImmediateLoadAndAdd : 0x6F80#16 &&& 0xF000#16 = 0x6000#16 ∧ 0x7F80#16 &&& 0xF000#16 = 0x7000#16 := by decide
theorem witness_RegisterCopyAndLogic : 0x8F10#16 &&& 0xF00F#16 = 0x8000#16 ∧ 0x8F11#16 &&& 0xF00F#16 = 0x8001#16 ∧
    0x8F12#16 &&& 0xF00F#16 = 0x8002#16 ∧ 0x8F13#16 &&& 0xF00F#16 = 0x8003#16 := by decide
theorem witness_AddWithCarry : (14#4 : Nibble) ≠ 15#4 ∧ booted.config.vfAliasOrder ≠ .snapshotFlagLast ∧
    (under .snapshotFlagLast booted).config.vfAliasOrder = .snapshotFlagLast := by decide
theorem witness_SubtractWithFlag :
    let s := withV [(1, 5), (2, 4)] booted
    (1#8 : Byte) = b2n (decide ((s.readV 2).toNat < (s.readV 1).toNat)) ∧
    (0#8 : Byte) = b2n (decide ((s.readV 1).toNat < (s.readV 1).toNat)) ∧ (1#4 : Nibble) ≠ 15#4 := by decide
theorem witness_ReverseSubtractWithFlag :
    let s := withV [(1, 4), (2, 5)] booted
    (1#8 : Byte) = b2n (decide ((s.readV 1).toNat < (s.readV 2).toNat)) ∧
    (0#8 : Byte) = b2n (decide ((s.readV 1).toNat < (s.readV 1).toNat)) ∧ (1#4 : Nibble) ≠ 15#4 := by decide
theorem witness_ShiftsByOne : ((withV [(1, 0x81)] booted).readV 1).toNat = 0x81 ∧ (booted.readV 15).toNat = 0 := by decide
theorem witness_AliasOrderMattersOnlyWhereVfIsNamed :
    (∀ x y, (Instr.addReg 14 0 = .addReg x y ∨ Instr.addReg 14 0 = .subReg x y ∨ Instr.addReg 14 0 = .subnReg x y) →
      x ≠ 15#4 ∧ y ≠ 15#4) ∧
    (∀ x y, (Instr.addReg 14 0 = .shr x y ∨ Instr.addReg 14 0 = .shl x y) → x ≠ 15#4) := by
  refine ⟨fun x y h => ?_, fun x y h => ?_⟩
  · rcases h with h | h | h <;> cases h
    exact ⟨by decide, by decide⟩
  · rcases h with h | h <;> cases h
theorem witness_IndexIsSetAndAdded : 0xAFFF#16 &&& 0xF000#16 = 0xA000#16 ∧ 0xFF1E#16 &&& 0xF0FF#16 = 0xF01E#16 := by decide
theorem witness_DecimalDigitsAreStored : Memory.wf (booted.setI 0xFFD).mem ∧ (booted.setI 0xFFD).i.toNat + 2 < 4096 := by decide
theorem witness_RegistersAreStored : Memory.wf (booted.setI 0xFF0).mem ∧
    (booted.setI 0xFF0).i.toNat + (15#4 : Nibble).toNat < 4096 := by decide
theorem witness_RegistersAreLoaded : (booted.setI 0xFF0).i.toNat + (15#4 : Nibble).toNat < 4096 ∧
    (0#4 : Nibble).toNat < (15#4 : Nibble).toNat := by decide
theorem witness_IndexRelativeAccessIsChecked : indexBytes? (.ldB 0) = some 3 ∧
    4096 ≤ (booted.setI 0xFFE).i.toNat + 3 - 1 ∧ (booted.setI 0xFFD).i.toNat + 3 - 1 < 4096 ∧
    indexBytes? (.drw 1 2 0) = some 0 := by decide
theorem witness_StoredBytesAreFetchedAsCode :
    let s := booted.setI 0x202
    ∃ t, Memory.wf s.mem ∧ 1 ≤ (1#4 : Nibble).toNat ∧ exec (.ldMemVx 1) s = .next t ∧ (t.setPc s.i).mem = t.mem ∧
      (t.setPc s.i).pc = s.i := ⟨_, by decide, by decide, rfl, rfl, rfl⟩
theorem witness_ClearDisplayClearsEveryPixel : 0x00E0#16 &&& 0xFFFF#16 = 0x00E0#16 := by decide
theorem witness_DrawTogglesExactlyTheSprite : (booted.setI 0xFF1).i.toNat + (15#4 : Nibble).toNat ≤ 4096 := by decide
theorem witness_DrawingTwiceRestoresTheDisplay :
    let s := withBytes 0x300 [0x80] (booted.setI 0x300)
    ∃ t u : State, exec (.drw 1 2 1) s = .next t ∧ u.disp = t.disp ∧ u.mem = s.mem ∧ u.i = s.i ∧ u.readV 1 = s.readV 1 ∧
      u.readV 2 = s.readV 2 := by
  refine ⟨_, _, rfl, rfl, rfl, rfl, ?_, ?_⟩ <;> rfl
theorem witness_DisplayFlagIsTheCollision :
    let s := withBytes 0x300 [0x80] (booted.setI 0x300)
    ∃ t, exec (.drw 1 2 1) s = .next t ∧ ∀ px py, s.disp.pixel px py = true → t.disp.pixel px py = true := by
  refine ⟨_, rfl, fun px py h => ?_⟩
  have : booted.disp.pixel px py = false := by
    simp [booted, State.reset, State.created, State.setPhase, Display.blank, Display.pixel]
  exact absurd (this.symm.trans h) (by decide)
theorem witness_KeyWaitTakesTheLowestKey : (withKeys [0] booted).keys[0] = true ∧ (withKeys [15] booted).keys[15] = true ∧
    (∀ (j : Nat) (hj : j < 15), (withKeys [15] booted).keys[j] = false) ∧
    (∀ (j : Nat) (hj : j < 16), booted.keys[j] = false) := by decide
theorem witness_KeyWaitIsAFixedPoint :
    let s := (withBytes 0xFFE [0xF5, 0x0A] booted).setPc 0xFFE
    s.status = .running ∧ s.phase = .loaded ∧ s.pc.toNat + 1 < 4096 ∧ s.mem.readWord s.pc.toNat = encode (.ldVxKey 5) ∧
    ∀ (j : Nat) (hj : j < 16), s.keys[j] = false := by decide
/-- For TimerStepDecrementsOnce, TimersSaturateAtZero and HostReadsAndClearsTheDisplayState. -/
theorem witness_booted_core : booted.status = .running ∧ booted.phase = .loaded := by decide
theorem witness_KeySetWritesOneKey : (15 < 16) ∧ 16 ≤ 16 ∧ booted.status = .running ∧ booted.phase = .loaded := by decide
theorem witness_LaunchStateHoldsFontAndRom : ([] : List Byte).length ≤ 3584 ∧ (List.replicate 3584 0x12#8).length ≤ 3584 :=
  ⟨Nat.zero_le _, List.length_replicate.le⟩
theorem witness_OversizedRomIsAFault : (State.reset.setPhase .fontsLoaded).status = .running ∧
    (State.reset.setPhase .fontsLoaded).phase = .fontsLoaded ∧ 3584 < (List.replicate 3585 0x12#8).length := by
  refine ⟨rfl, rfl, ?_⟩
  rw [List.length_replicate]
  omega
theorem witness_OnlyListedInstructionsWriteRegisters :
    (∃ t, exec (.ldImm 15 7) booted = .next t ∧ t.readV 15 ≠ booted.readV 15) ∧
    (∃ t, HostOp.tickTimers ≠ .tick ∧ perform .tickTimers booted = .next t) :=
  ⟨⟨_, rfl, by decide⟩, ⟨_, by decide, rfl⟩⟩
theorem witness_IndexIsTouchedOnlyByItsInstructions :
    (∃ t, exec (.ldI 0xFFF) booted = .next t ∧ t.i ≠ booted.i) ∧ indexBytes? (.jp 0x200) = none ∧
    (∀ nnn, Instr.jp 0x200 ≠ .ldI nnn) ∧ (∀ x, Instr.jp 0x200 ≠ .addI x) ∧ (∀ x, Instr.jp 0x200 ≠ .ldF x) :=
  ⟨⟨_, rfl, by decide⟩, rfl, nofun, nofun, nofun⟩
theorem witness_OnlyListedInstructionsWritePc : ∃ t, exec (.ldVxKey 1) booted = .next t ∧ t.pc ≠ booted.pc :=
  ⟨_, rfl, by decide⟩
theorem witness_EachPieceHasItsWriters : ∃ t, exec (.drw 1 2 3) booted = .next t ∧
    (∀ x, Instr.drw 1 2 3 ≠ .ldB x) ∧ (∀ x, Instr.drw 1 2 3 ≠ .ldMemVx x) ∧ Instr.drw 1 2 3 ≠ .ret ∧
    (∀ nnn, Instr.drw 1 2 3 ≠ .call nnn) ∧ (∀ x, Instr.drw 1 2 3 ≠ .ldDtVx x) ∧ (∀ x, Instr.drw 1 2 3 ≠ .ldStVx x) ∧
    Instr.drw 1 2 3 ≠ .cls ∧ (∀ op, Instr.drw 1 2 3 ≠ .unimplemented op) ∧ (∀ x nn, Instr.drw 1 2 3 ≠ .rnd x nn) :=
  ⟨_, rfl, nofun, nofun, nofun, nofun, nofun, nofun, nofun, nofun, nofun⟩
theorem witness_UnreadStateDoesNotMatter :
    (∀ x, Instr.ret ≠ .skp x) ∧ (∀ x, Instr.ret ≠ .sknp x) ∧ (∀ x, Instr.ret ≠ .ldVxKey x) ∧
    (∀ x, Instr.ret ≠ .ldStVx x) ∧ Instr.ret ≠ .cls ∧ (∀ x y n, Instr.ret ≠ .drw x y n) :=
  ⟨nofun, nofun, nofun, nofun, nofun, nofun⟩
theorem witness_StepKeepsTheInvariant : Inv (booted.setPc 0xFFE) ∧ ∃ t, step (booted.setPc 0xFFE) = .next t :=
  ⟨⟨by decide, by decide, by decide, by decide⟩, ⟨_, rfl⟩⟩
theorem witness_HaltedCoreIsAFixedPoint : Halted (withBytes 0xFFE [0x1F, 0xFE] (booted.setPc 0xFFE)) := by
  refine ⟨by decide, by decide, by decide, by decide⟩

end Sys2Proof.Tests
end

section
/-! PROOF. The state (10_state.md): which pieces of it an instruction and a host operation can write, said once as a
table, and what a completed instruction leaves in the pieces that R39 and the canonical form of memory speak of. -/

namespace Sys2Proof.Machine

/-! ## What instructions and host operations write -/

/-- The pieces of the state a completed instruction can write (10_state.md R25-R34, 20_memory.md R50). -/
@[simp] def writtenParts : Instr → List Part
  | .cls => [.disp, .clearFlag]
  | .ret | .call _ => [.stack, .pc]
  | .sys _ => []
  | .jp _ | .jpV0 _ | .seImm _ _ | .sneImm _ _ | .seReg _ _ | .sneReg _ _ | .skp _ | .sknp _ => [.pc]
  | .ldImm _ _ | .addImm _ _ | .ldReg _ _ | .orReg _ _ | .andReg _ _ | .xorReg _ _ | .addReg _ _ | .subReg _ _
  | .subnReg _ _ | .shr _ _ | .shl _ _ | .ldVxDt _ | .ldVxMem _ => [.regs]
  | .ldI _ | .addI _ | .ldF _ => [.index]
  | .rnd _ _ => [.draws, .regs]
  | .drw _ _ _ => [.disp, .regs, .displayFlag]
  | .ldVxKey _ => [.regs, .pc]
  | .ldDtVx _ => [.delay]
  | .ldStVx _ => [.sound]
  | .ldB _ | .ldMemVx _ => [.mem]
  | .unimplemented _ => [.events]

/-! ## Keeping a piece of the state -/

/-- A piece of the state is held the very same in both. This is `Part.same` but for the three pieces that `Part.same`
compares by what reads return. -/
def Part.kept (p : Part) (s t : State) : Prop :=
  match p with
  | .mem => t.mem = s.mem
  | .regs => t.v = s.v
  | .disp => t.disp = s.disp
  | p => p.same s t

theorem Part.kept.same {p : Part} {s t : State} (h : p.kept s t) : p.same s t := by
  cases p <;> simp_all [Part.kept, Part.same, State.readV]

/-- Every piece of the state but those listed is kept. -/
def Keeps (but : List Part) (s t : State) : Prop := ∀ p, p ∉ but → p.kept s t

section
variable {ps qs : List Part} {s t : State}

theorem Keeps.unchanged (h : Keeps ps s t) : Unchanged ps s t := fun p hp => (h p hp).same

theorem Keeps.refl (ps : List Part) (s : State) : Keeps ps s s := by
  intro p _
  cases p <;> simp [Part.kept, Part.same]

theorem Keeps.mono (h : Keeps ps s t) (hsub : ps ⊆ qs) : Keeps qs s t := fun p hp => h p fun hmem => hp (hsub hmem)

theorem Keeps.trans {u : State} (h1 : Keeps ps s t) (h2 : Keeps ps t u) : Keeps ps s u := by
  intro p hp
  have kept1 := h1 p hp
  have kept2 := h2 p hp
  cases p <;> simp_all [Part.kept, Part.same]

theorem keeps_setSchedule (s : State) (l : List HostOp) : Keeps [.schedule] s (s.setSchedule l) := by
  intro p hp
  cases p <;> simp_all [Part.kept, Part.same]

/-! An update of a listed piece keeps what was kept. -/

theorem Keeps.withV (h : Keeps ps s t) (w : Vector Byte 16) (hp : .regs ∈ ps := by simp) : Keeps ps s { t with v := w } :=
  h.trans fun p hq => by cases p <;> simp_all [Part.kept, Part.same]

theorem Keeps.writeV (h : Keeps ps s t) (x : Nibble) (b : Byte) (hp : .regs ∈ ps := by simp) : Keeps ps s (t.writeV x b) :=
  h.withV _ hp

theorem Keeps.setPc (h : Keeps ps s t) (a : Word) (hp : .pc ∈ ps := by simp) : Keeps ps s (t.setPc a) :=
  h.trans fun p hq => by cases p <;> simp_all [Part.kept, Part.same]

theorem Keeps.setI (h : Keeps ps s t) (a : Word) (hp : .index ∈ ps := by simp) : Keeps ps s (t.setI a) :=
  h.trans fun p hq => by cases p <;> simp_all [Part.kept, Part.same]

theorem Keeps.setStack (h : Keeps ps s t) (k : Vector Word 16) (n : Fin 17) (hp : .stack ∈ ps := by simp) :
    Keeps ps s (t.setStack k n) :=
  h.trans fun p hq => by cases p <;> simp_all [Part.kept, Part.same]

theorem Keeps.setDt (h : Keeps ps s t) (b : Byte) (hp : .delay ∈ ps := by simp) : Keeps ps s (t.setDt b) :=
  h.trans fun p hq => by cases p <;> simp_all [Part.kept, Part.same]

theorem Keeps.setSt (h : Keeps ps s t) (b : Byte) (hp : .sound ∈ ps := by simp) : Keeps ps s (t.setSt b) :=
  h.trans fun p hq => by cases p <;> simp_all [Part.kept, Part.same]

theorem Keeps.setMem (h : Keeps ps s t) (m : Memory) (hp : .mem ∈ ps := by simp) : Keeps ps s (t.setMem m) :=
  h.trans fun p hq => by cases p <;> simp_all [Part.kept, Part.same]

theorem Keeps.setDisp (h : Keeps ps s t) (d : Display) (hp : .disp ∈ ps := by simp) : Keeps ps s (t.setDisp d) :=
  h.trans fun p hq => by cases p <;> simp_all [Part.kept, Part.same]

theorem Keeps.setClearFlag (h : Keeps ps s t) (b : Bool) (hp : .clearFlag ∈ ps := by simp) :
    Keeps ps s (t.setClearFlag b) :=
  h.trans fun p hq => by cases p <;> simp_all [Part.kept, Part.same]

theorem Keeps.setDisplayFlag (h : Keeps ps s t) (b : Bool) (hp : .displayFlag ∈ ps := by simp) :
    Keeps ps s (t.setDisplayFlag b) :=
  h.trans fun p hq => by cases p <;> simp_all [Part.kept, Part.same]

theorem Keeps.setKeys (h : Keeps ps s t) (k : Vector Bool 16) (hp : .keys ∈ ps := by simp) : Keeps ps s (t.setKeys k) :=
  h.trans fun p hq => by cases p <;> simp_all [Part.kept, Part.same]

theorem Keeps.setPhase (h : Keeps ps s t) (ph : Phase) (hp : .phase ∈ ps := by simp) : Keeps ps s (t.setPhase ph) :=
  h.trans fun p hq => by cases p <;> simp_all [Part.kept, Part.same]

theorem Keeps.emit (h : Keeps ps s t) (e : Event) (hp : .events ∈ ps := by simp) : Keeps ps s (t.emit e) :=
  h.trans fun p hq => by cases p <;> simp_all [Part.kept, Part.same]

theorem Keeps.countDraw (h : Keeps ps s t) (hp : .draws ∈ ps := by simp) : Keeps ps s t.countDraw :=
  h.trans fun p hq => by cases p <;> simp_all [Part.kept, Part.same]

/-! And so do the composed updates that instructions share. -/

theorem keeps_skipIf (s : State) (test : Bool) : Keeps [.pc] s (s.skipIf test) := by
  rw [State.skipIf_eq]
  exact (Keeps.refl _ s).setPc _

theorem keeps_flaggedSum (s : State) (x y : Nibble) (flag res : Byte → Byte → Byte) :
    Keeps [.regs] s (s.flaggedSum x y flag res) := by
  obtain ⟨w, hw⟩ := s.flaggedSum_v x y flag res
  exact hw ▸ (Keeps.refl _ s).withV w

theorem keeps_flaggedReread (s : State) (x y : Nibble) (flag res : Byte → Byte → Byte) :
    Keeps [.regs] s (s.flaggedReread x y flag res) := by
  obtain ⟨w, hw⟩ := s.flaggedReread_v x y flag res
  exact hw ▸ (Keeps.refl _ s).withV w

theorem keeps_loadRegs (s : State) (n : Nat) : Keeps [.regs] s (s.loadRegs n) := by
  obtain ⟨w, hw⟩ := s.loadRegs_eq n
  exact hw ▸ (Keeps.refl _ s).withV w

theorem keeps_finishDraw (s : State) (d : Drawing) : Keeps [.disp, .regs, .displayFlag] s (s.finishDraw d) :=
  (((Keeps.refl _ s).setDisp _).writeV _ _).setDisplayFlag _

end

/-! ## The instructions with two outcomes, where they complete -/

section
variable {s t : State} {x : Nibble}

theorem keySkip_eq_next {i : Instr} {pressed : Bool} (h : s.keySkip x i pressed = .next t) :
    t = s.skipIf (s.keyHeld (s.readV x).toNat == pressed) := by
  by_cases hk : (s.readV x).toNat < 16
  · rw [s.keySkip_lt hk] at h; cases h; rfl
  · rw [s.keySkip_ge (by omega)] at h; cases h

theorem exec_ret_eq_next (h : exec .ret s = .next t) : ∃ _ : s.sp.val ≠ 0,
    t = (s.setStack s.stack ⟨s.sp.val - 1, by omega⟩).setPc (s.stack[s.sp.val - 1]'(by omega)) := by
  by_cases hsp : s.sp.val = 0
  · rw [exec_ret_fault s (Fin.ext hsp)] at h; cases h
  · rw [exec_ret_next s hsp] at h; cases h; exact ⟨hsp, rfl⟩

theorem exec_call_eq_next {nnn : Addr12} (h : exec (.call nnn) s = .next t) : ∃ hsp : s.sp.val < 16,
    t = (s.setStack (s.stack.set s.sp.val s.pc hsp) ⟨s.sp.val + 1, by omega⟩).setPc (addressOf nnn) := by
  by_cases hsp : s.sp.val < 16
  · rw [exec_call_next s nnn hsp] at h; cases h; exact ⟨hsp, rfl⟩
  · have full : s.sp = 16 := Fin.ext (by simp only [Fin.isValue, Fin.coe_ofNat_eq_mod]; omega)
    rw [exec_call_fault s nnn full] at h; cases h

theorem exec_ldVxKey_eq_next (h : exec (.ldVxKey x) s = .next t) :
    (∃ k, t = s.writeV x (BitVec.ofNat 8 k)) ∨ t = s.rewind := by
  cases hk : s.firstKey? with
  | some k => rw [exec_ldVxKey_some s x hk] at h; cases h; exact .inl ⟨k, rfl⟩
  | none => rw [exec_ldVxKey_none s x hk] at h; cases h; exact .inr rfl

theorem exec_ldB_eq_next (h : exec (.ldB x) s = .next t) :
    s.i.toNat + 3 ≤ 4096 ∧ t = s.setMem (s.mem.writeBytes s.i.toNat (decimalDigits (s.readV x))) := by
  obtain ⟨hi, rfl⟩ := s.checkedIndex_eq_next.mp (exec_ldB s x ▸ h)
  exact ⟨by omega, rfl⟩

theorem exec_ldMemVx_eq_next (h : exec (.ldMemVx x) s = .next t) :
    s.i.toNat + (x.toNat + 1) ≤ 4096 ∧ t = s.setMem (s.storeRegs (x.toNat + 1)) := by
  obtain ⟨hi, rfl⟩ := s.checkedIndex_eq_next.mp (exec_ldMemVx s x ▸ h)
  exact ⟨by omega, rfl⟩

theorem exec_ldVxMem_eq_next (h : exec (.ldVxMem x) s = .next t) : t = s.loadRegs (x.toNat + 1) := by
  obtain ⟨-, rfl⟩ := s.checkedIndex_eq_next.mp (exec_ldVxMem s x ▸ h)
  rfl

theorem exec_drw_eq_next {y n : Nibble} (h : exec (.drw x y n) s = .next t) : ∃ d, t = s.finishDraw d := by
  obtain ⟨-, rfl⟩ := s.checkedIndex_eq_next.mp (exec_drw s x y n ▸ h)
  exact ⟨_, rfl⟩

end

/-! ## What an instruction keeps -/

/-- A completed instruction keeps every piece of the state that its row of `writtenParts` does not list. -/
theorem exec_keeps {i : Instr} {s t : State} (h : exec i s = .next t) : Keeps (writtenParts i) s t := by
  have same (ps : List Part) : Keeps ps s s := Keeps.refl ps s
  cases i with
  | cls => cases h; exact ((same _).setDisp _).setClearFlag _
  | ret =>
    obtain ⟨_, rfl⟩ := exec_ret_eq_next h
    exact ((same _).setStack _ _).setPc _
  | sys nn => cases h; exact same _
  | jp nnn => cases h; exact (same _).setPc _
  | call nnn =>
    obtain ⟨_, rfl⟩ := exec_call_eq_next h
    exact ((same _).setStack _ _).setPc _
  | seImm x nn => cases h; exact keeps_skipIf s _
  | sneImm x nn => cases h; exact keeps_skipIf s _
  | seReg x y => cases h; exact keeps_skipIf s _
  | sneReg x y => cases h; exact keeps_skipIf s _
  | ldImm x nn => cases h; exact (same _).writeV _ _
  | addImm x nn => cases h; exact (same _).writeV _ _
  | ldReg x y => cases h; exact (same _).writeV _ _
  | orReg x y => cases h; exact (same _).writeV _ _
  | andReg x y => cases h; exact (same _).writeV _ _
  | xorReg x y => cases h; exact (same _).writeV _ _
  | addReg x y => cases h; exact keeps_flaggedSum s _ _ _ _
  | subReg x y => cases h; exact keeps_flaggedReread s _ _ _ _
  | subnReg x y => cases h; exact keeps_flaggedReread s _ _ _ _
  | shr x y => cases h; exact keeps_flaggedReread s _ _ _ _
  | shl x y => cases h; exact keeps_flaggedReread s _ _ _ _
  | ldI nnn => cases h; exact (same _).setI _
  | jpV0 nnn => cases h; exact (same _).setPc _
  | rnd x nn => cases h; exact (same _).countDraw.writeV _ _
  | drw x y n =>
    obtain ⟨_, rfl⟩ := exec_drw_eq_next h
    exact keeps_finishDraw s _
  | skp x => exact keySkip_eq_next h ▸ keeps_skipIf s _
  | sknp x => exact keySkip_eq_next h ▸ keeps_skipIf s _
  | ldVxDt x => cases h; exact (same _).writeV _ _
  | ldVxKey x =>
    obtain ⟨_, rfl⟩ | rfl := exec_ldVxKey_eq_next h
    · exact (same _).writeV _ _
    · exact (same _).setPc _
  | ldDtVx x => cases h; exact (same _).setDt _
  | ldStVx x => cases h; exact (same _).setSt _
  | addI x => cases h; exact (same _).setI _
  | ldF x => cases h; exact (same _).setI _
  | ldB x =>
    obtain ⟨-, rfl⟩ := exec_ldB_eq_next h
    exact (same _).setMem _
  | ldMemVx x =>
    obtain ⟨-, rfl⟩ := exec_ldMemVx_eq_next h
    exact (same _).setMem _
  | ldVxMem x => exact exec_ldVxMem_eq_next h ▸ keeps_loadRegs s _
  | unimplemented op => cases h; exact (same _).emit _

/-! ## What a host operation keeps -/

/-- The pieces of the state a host operation can write (60_exceptions.md R216-R225, 70_reset_and_hazards.md R241, R242).
A tick writes what its instruction writes, and `pc` by the fetch. -/
@[simp] def hostWrittenParts : HostOp → List Part
  | .loadFonts | .loadRom _ => [.mem, .phase]
  | .tick => [.pc, .mem, .regs, .index, .stack, .delay, .sound, .disp, .clearFlag, .displayFlag, .events, .draws]
  | .tickTimers => [.delay, .sound, .events]
  | .keySet _ _ => [.keys]
  | .resetClearFlag => [.clearFlag]
  | .resetDisplayFlag => [.displayFlag]
  | .display | .flags | .status => []

theorem writtenParts_subset_tick (i : Instr) : writtenParts i ⊆ hostWrittenParts .tick := by
  cases i <;> simp

/-- A tick that completes fetched a word inside memory and executed its instruction. -/
theorem opTick_eq_next {s t : State} (h : opTick s = .next t) :
    s.pc.toNat + 1 < 4096 ∧ exec (decode (s.mem.readWord s.pc.toNat)) s.advance = .next t := by
  obtain ⟨-, -, h⟩ := s.ifAdmitted_eq_next.mp h
  by_cases hpc : s.pc.toNat + 1 < 4096
  · rw [s.fetch_ok hpc] at h
    exact ⟨hpc, h⟩
  · rw [s.fetch_error (by omega)] at h
    cases h

/-- A `load_rom` that completes writes its bytes inside memory. -/
theorem opLoadRom_eq_next {bytes : List Byte} {s t : State} (h : opLoadRom bytes s = .next t) :
    bytes.length ≤ romMax ∧ t = (s.setMem (s.mem.writeBytes romBase bytes)).setPhase .loaded := by
  obtain ⟨-, -, h⟩ := s.ifAdmitted_eq_next.mp h
  split_ifs at h with hlen
  cases h
  exact ⟨by omega, rfl⟩

/-- A `key_set` that completes writes one of the 16 keys. -/
theorem opKeySet_eq_next {key : Nat} {pressed : Bool} {s t : State} (h : opKeySet key pressed s = .next t) :
    ∃ hk : key < 16, t = s.setKeys (s.keys.set key pressed hk) := by
  obtain ⟨-, -, h⟩ := s.ifAdmitted_eq_next.mp h
  split_ifs at h with hk
  cases h
  exact ⟨hk, rfl⟩

theorem keeps_stepTimers (s : State) : Keeps [.delay, .sound, .events] s s.stepTimers := by
  have timers : Keeps [.delay, .sound, .events] s ((s.setDt (countDown s.dt)).setSt (countDown s.st)) :=
    ((Keeps.refl _ s).setDt _).setSt _
  unfold State.stepTimers
  split_ifs
  · exact timers.emit _
  · exact timers

/-- A completed host operation keeps every piece of the state that its row of `hostWrittenParts` does not list. -/
theorem perform_keeps {op : HostOp} {s t : State} (h : perform op s = .next t) : Keeps (hostWrittenParts op) s t := by
  have same (ps : List Part) : Keeps ps s s := Keeps.refl ps s
  cases op with
  | loadFonts =>
    obtain ⟨-, -, ⟨⟩⟩ := s.ifAdmitted_eq_next.mp h
    exact ((same _).setMem _).setPhase _
  | loadRom bytes =>
    obtain ⟨-, rfl⟩ := opLoadRom_eq_next h
    exact ((same _).setMem _).setPhase _
  | tick =>
    obtain ⟨-, hexec⟩ := opTick_eq_next h
    exact ((same _).setPc _).trans ((exec_keeps hexec).mono (writtenParts_subset_tick _))
  | tickTimers =>
    obtain ⟨-, -, ⟨⟩⟩ := s.ifAdmitted_eq_next.mp h
    exact keeps_stepTimers s
  | keySet key pressed =>
    obtain ⟨-, rfl⟩ := opKeySet_eq_next h
    exact (same _).setKeys _
  | resetClearFlag =>
    obtain ⟨-, -, ⟨⟩⟩ := s.ifAdmitted_eq_next.mp h
    exact (same _).setClearFlag _
  | resetDisplayFlag =>
    obtain ⟨-, -, ⟨⟩⟩ := s.ifAdmitted_eq_next.mp h
    exact (same _).setDisplayFlag _
  | display => cases h; exact same _
  | flags => cases h; exact same _
  | status => cases h; exact same _

/-! ## What a completed instruction leaves in `pc`, the stack and memory -/

/-- The skips (41_flow.md R104-R107, 45_keys_timers.md R180, R181). -/
def isSkip : Instr → Bool
  | .seImm _ _ | .sneImm _ _ | .seReg _ _ | .sneReg _ _ | .skp _ | .sknp _ => true
  | _ => false

theorem State.skipIf_pc_cases (s : State) (test : Bool) :
    (s.skipIf test).pc = s.pc ∨ (s.skipIf test).pc = s.pc + 2#16 := by
  cases test
  · exact .inl rfl
  · exact .inr rfl

theorem exec_skip_eq_next {i : Instr} {s t : State} (hi : isSkip i = true) (h : exec i s = .next t) :
    ∃ test, t = s.skipIf test := by
  cases i with
  | seImm _ _ | sneImm _ _ | seReg _ _ | sneReg _ _ => cases h; exact ⟨_, rfl⟩
  | skp _ | sknp _ => exact ⟨_, keySkip_eq_next h⟩
  | _ => cases hi

/-- `pc` after a completed instruction: as the fetch left it, or as one of the writers of 10_state.md R28 sets it. -/
theorem exec_pc_cases {i : Instr} {s t : State} (h : exec i s = .next t) :
    t.pc = s.pc ∨
    (i = .ret ∧ ∃ _ : s.sp.val ≠ 0, t.pc = s.stack[s.sp.val - 1]'(by omega)) ∨
    (∃ nnn, (i = .jp nnn ∨ i = .call nnn) ∧ t.pc = addressOf nnn) ∨
    (∃ nnn, i = .jpV0 nnn ∧ t.pc = s.jumpV0Target nnn) ∨
    (∃ x, i = .ldVxKey x ∧ t.pc = s.pc - 2#16) ∨
    (isSkip i = true ∧ t.pc = s.pc + 2#16) := by
  cases i with
  | ret =>
    obtain ⟨hsp, rfl⟩ := exec_ret_eq_next h
    exact .inr (.inl ⟨rfl, hsp, rfl⟩)
  | jp nnn => cases h; exact .inr (.inr (.inl ⟨nnn, .inl rfl, rfl⟩))
  | call nnn =>
    obtain ⟨-, rfl⟩ := exec_call_eq_next h
    exact .inr (.inr (.inl ⟨nnn, .inr rfl, rfl⟩))
  | jpV0 nnn => cases h; exact .inr (.inr (.inr (.inl ⟨nnn, rfl, rfl⟩)))
  | ldVxKey x =>
    obtain ⟨_, rfl⟩ | rfl := exec_ldVxKey_eq_next h
    · exact .inl rfl
    · exact .inr (.inr (.inr (.inr (.inl ⟨x, rfl, rfl⟩))))
  | seImm _ _ | sneImm _ _ | seReg _ _ | sneReg _ _ | skp _ | sknp _ =>
    obtain ⟨test, rfl⟩ := exec_skip_eq_next rfl h
    exact (s.skipIf_pc_cases test).imp_right fun e => .inr (.inr (.inr (.inr ⟨rfl, e⟩)))
  | _ => exact .inl (exec_keeps h .pc (by simp))

/-- The stack after a completed instruction: as before, or one entry popped, or the address after a call pushed. -/
theorem exec_stack_cases {i : Instr} {s t : State} (h : exec i s = .next t) :
    (t.stack = s.stack ∧ t.sp = s.sp) ∨
    (i = .ret ∧ t.stack = s.stack ∧ t.sp.val + 1 = s.sp.val) ∨
    (∃ nnn, i = .call nnn ∧ ∃ hsp : s.sp.val < 16,
      t.stack = s.stack.set s.sp.val s.pc hsp ∧ t.sp.val = s.sp.val + 1) := by
  cases i with
  | ret =>
    obtain ⟨hsp, rfl⟩ := exec_ret_eq_next h
    exact .inr (.inl ⟨rfl, rfl, Nat.sub_add_cancel (Nat.pos_of_ne_zero hsp)⟩)
  | call nnn =>
    obtain ⟨hsp, rfl⟩ := exec_call_eq_next h
    exact .inr (.inr ⟨nnn, rfl, hsp, rfl, rfl⟩)
  | _ => exact .inl (exec_keeps h .stack (by simp))

/-- Memory after a completed instruction: as before, or with the bytes of FX33 or FX55, all inside the address space. -/
theorem exec_mem_cases {i : Instr} {s t : State} (h : exec i s = .next t) :
    t.mem = s.mem ∨
    (∃ x, i = .ldB x ∧ s.i.toNat + 3 ≤ 4096 ∧ t.mem = s.mem.writeBytes s.i.toNat (decimalDigits (s.readV x))) ∨
    (∃ x, i = .ldMemVx x ∧ s.i.toNat + (x.toNat + 1) ≤ 4096 ∧ t.mem = s.storeRegs (x.toNat + 1)) := by
  cases i with
  | ldB x =>
    obtain ⟨hi, rfl⟩ := exec_ldB_eq_next h
    exact .inr (.inl ⟨x, rfl, hi, rfl⟩)
  | ldMemVx x =>
    obtain ⟨hi, rfl⟩ := exec_ldMemVx_eq_next h
    exact .inr (.inr ⟨x, rfl, hi, rfl⟩)
  | _ => exact .inl (exec_keeps h .mem (by simp))

/-! ## The invariant -/

theorem addressOf_le (nnn : Addr12) : (addressOf nnn).toNat ≤ 0xFFF := by
  simp only [addressOf, BitVec.toNat_setWidth]; omega

theorem State.jumpV0Target_le (s : State) (nnn : Addr12) : (s.jumpV0Target nnn).toNat ≤ 0x10FE := by
  simp only [State.jumpV0Target, BitVec.toNat_ofNat]; omega

/-- A state that agrees with one that meets the invariant on the pieces the invariant speaks of meets it too. -/
theorem Inv.of_keeps {ps : List Part} {s t : State} (hs : Inv s) (h : Keeps ps s t) (hpc : .pc ∉ ps := by simp)
    (hstack : .stack ∉ ps := by simp) (hmem : .mem ∉ ps := by simp) : Inv t := by
  obtain ⟨hstk, hsp⟩ : t.stack = s.stack ∧ t.sp = s.sp := h .stack hstack
  have hm : t.mem = s.mem := h .mem hmem
  have hp : t.pc = s.pc := h .pc hpc
  exact ⟨hp ▸ hs.pc_le, by simpa only [hstk, hsp] using hs.stack_le, hm ▸ hs.mem_wf, hm ▸ hs.mem_inSpace⟩

/-- A completed instruction that was fetched from memory keeps the invariant: `s` is the state after the fetch, so `pc`
lies between 2 and 0x1000, which is what bounds a pushed `pc` and keeps FX0A's rewind from wrapping. -/
theorem exec_keeps_inv {i : Instr} {s t : State} (hs : Inv s) (hlo : 2 ≤ s.pc.toNat) (hhi : s.pc.toNat ≤ 0x1000)
    (h : exec i s = .next t) : Inv t where
  pc_le := by
    obtain e | ⟨-, hsp, e⟩ | ⟨nnn, -, e⟩ | ⟨nnn, -, e⟩ | ⟨x, -, e⟩ | ⟨-, e⟩ := exec_pc_cases h <;> rw [e]
    · exact hs.pc_le
    · have := hs.stack_le (s.sp.val - 1) (by omega) (by omega)
      omega
    · have := addressOf_le nnn
      omega
    · exact s.jumpV0Target_le nnn
    · bv_omega
    · bv_omega
  stack_le k hk hlive := by
    obtain ⟨e, hsp⟩ | ⟨-, e, hsp⟩ | ⟨nnn, -, hfull, e, hsp⟩ := exec_stack_cases h <;> simp only [e]
    · exact hs.stack_le k hk (hsp ▸ hlive)
    · exact hs.stack_le k hk (by omega)
    · rw [Vector.getElem_set]
      split_ifs
      · exact hhi
      · exact hs.stack_le k hk (by omega)
  mem_wf := by
    obtain e | ⟨x, -, -, e⟩ | ⟨x, -, -, e⟩ := exec_mem_cases h <;> rw [e]
    · exact hs.mem_wf
    · exact Memory.wf_writeBytes hs.mem_wf _ _
    · exact s.storeRegs_wf hs.mem_wf _
  mem_inSpace := by
    obtain e | ⟨x, -, hi, e⟩ | ⟨x, -, hi, e⟩ := exec_mem_cases h <;> rw [e]
    · exact hs.mem_inSpace
    · exact Memory.inSpace_writeBytes hs.mem_inSpace hi
    · exact s.storeRegs_inSpace hs.mem_inSpace hi

theorem Inv.writeBytes {s : State} (hs : Inv s) {a : Nat} {bs : List Byte} (ha : a + bs.length ≤ memSize) :
    Inv (s.setMem (s.mem.writeBytes a bs)) :=
  ⟨hs.pc_le, hs.stack_le, Memory.wf_writeBytes hs.mem_wf a bs, Memory.inSpace_writeBytes hs.mem_inSpace ha⟩

theorem opTick_keeps_inv {s t : State} (hs : Inv s) (h : opTick s = .next t) : Inv t := by
  obtain ⟨hpc, hexec⟩ := opTick_eq_next h
  have hadv : (s.pc + 2#16).toNat = s.pc.toNat + 2 := by bv_omega
  have hs' : Inv s.advance := ⟨by simp [hadv]; omega, hs.stack_le, hs.mem_wf, hs.mem_inSpace⟩
  exact exec_keeps_inv hs' (by simp [hadv]) (by simp [hadv]; omega) hexec

/-- Every host operation keeps the invariant: the two loaders write inside the address space, a tick executes a fetched
instruction, and the others write none of its pieces. -/
theorem perform_keeps_inv {op : HostOp} {s t : State} (hs : Inv s) (h : perform op s = .next t) : Inv t := by
  cases op with
  | loadFonts =>
    obtain ⟨-, -, ⟨⟩⟩ := s.ifAdmitted_eq_next.mp h
    exact (hs.writeBytes (by simp [memSize])).of_keeps ((Keeps.refl [.phase] _).setPhase _)
  | loadRom bytes =>
    obtain ⟨hlen, rfl⟩ := opLoadRom_eq_next h
    exact (hs.writeBytes (by simp only [memSize, romBase, romMax] at *; omega)).of_keeps ((Keeps.refl [.phase] _).setPhase _)
  | tick => exact opTick_keeps_inv hs h
  | _ => exact hs.of_keeps (perform_keeps h)

/-- Settles O57: the next host operation is performed in the same state but for the schedule, and keeps the invariant. -/
theorem stepKeepsTheInvariant : Obligations.StepKeepsTheInvariant := by
  intro s t hs h
  have hnext : Inv s.nextOp.2 := s.nextOp_state ▸ hs.of_keeps (keeps_setSchedule s _)
  exact perform_keeps_inv hnext h

/-- Settles O58. -/
theorem creationMeetsTheInvariant : Obligations.CreationMeetsTheInvariant := fun _ =>
  ⟨by simp [State.created], fun k hk _ => by simp [State.created], Memory.wf_nil, by simp [State.created]⟩

/-! ## Registers -/

/-- The general registers a completed instruction can write (10_state.md R25). -/
@[simp] def writesReg (i : Instr) (r : Nibble) : Prop :=
  match i with
  | .ldImm x _ | .addImm x _ | .ldReg x _ | .orReg x _ | .andReg x _ | .xorReg x _ | .rnd x _ | .ldVxDt x
  | .ldVxKey x => r = x
  | .addReg x _ | .subReg x _ | .subnReg x _ | .shr x _ | .shl x _ => r = x ∨ r = 15#4
  | .ldVxMem x => r.toNat ≤ x.toNat
  | .drw _ _ _ => r = 15#4
  | _ => False

theorem Keeps.readV {ps : List Part} {s t : State} (h : Keeps ps s t) (hp : .regs ∉ ps) (r : Nibble) :
    t.readV r = s.readV r := (h .regs hp).same r

/-- A completed instruction leaves every register alone that `writesReg` does not list for it. -/
theorem exec_readV {i : Instr} {s t : State} {r : Nibble} (h : exec i s = .next t) (hr : ¬ writesReg i r) :
    t.readV r = s.readV r := by
  cases i with
  | ldImm x _ | addImm x _ | ldReg x _ | orReg x _ | andReg x _ | xorReg x _ | rnd x _ | ldVxDt x =>
    cases h; exact State.readV_writeV_ne _ _ hr
  | ldVxKey x =>
    obtain ⟨k, rfl⟩ | rfl := exec_ldVxKey_eq_next h
    · exact s.readV_writeV_ne _ hr
    · rfl
  | addReg x y => cases h; exact (s.flaggedSum_onlyRegs ..).2 r (by simpa using hr)
  | subReg x y | subnReg x y | shr x y | shl x y =>
    cases h; exact (s.flaggedReread_onlyRegs ..).2 r (by simpa using hr)
  | ldVxMem x =>
    rw [exec_ldVxMem_eq_next h, s.loadRegs_readV (by omega), if_neg (by simpa [Nat.lt_succ_iff] using hr)]
  | drw x y n =>
    obtain ⟨d, rfl⟩ := exec_drw_eq_next h
    exact (s.setDisp d.disp).readV_writeV_ne _ hr
  | _ => exact (exec_keeps h).readV (by simp) r

/-- Settles O52. -/
theorem onlyListedInstructionsWriteRegisters : Obligations.OnlyListedInstructionsWriteRegisters := by
  refine ⟨fun i s t r h hne => ?_, fun op s t r hop h => ?_⟩
  · have hw : writesReg i r := by_contra fun hr => hne (exec_readV h hr)
    clear h
    cases i <;> simp_all
  · exact (perform_keeps h).readV (by cases op <;> simp_all) r

/-! ## The index register -/

section
variable (s : State) (a : Word)

theorem State.skipIf_setI (test : Bool) : (s.setI a).skipIf test = (s.skipIf test).setI a := by
  cases test <;> rfl

theorem State.flaggedSum_setI (x y : Nibble) (flag res : Byte → Byte → Byte) :
    (s.setI a).flaggedSum x y flag res = (s.flaggedSum x y flag res).setI a := by
  unfold State.flaggedSum
  rw [State.setI_config]
  split <;> rfl

theorem State.flaggedReread_setI (x y : Nibble) (flag res : Byte → Byte → Byte) :
    (s.setI a).flaggedReread x y flag res = (s.flaggedReread x y flag res).setI a := by
  unfold State.flaggedReread
  rw [State.setI_config]
  split <;> rfl

theorem State.keySkip_setI (x : Nibble) (i : Instr) (pressed : Bool) :
    (s.setI a).keySkip x i pressed = mapNext (·.setI a) (s.keySkip x i pressed) := by
  by_cases hk : (s.readV x).toNat < 16
  · rw [s.keySkip_lt hk, (s.setI a).keySkip_lt hk, State.skipIf_setI]; rfl
  · rw [s.keySkip_ge (by omega), (s.setI a).keySkip_ge (by simpa using hk)]; rfl

theorem exec_ret_setI : exec .ret (s.setI a) = mapNext (·.setI a) (exec .ret s) := by
  by_cases hsp : s.sp.val = 0
  · rw [exec_ret_fault s (Fin.ext hsp), exec_ret_fault (s.setI a) (Fin.ext hsp)]; rfl
  · rw [exec_ret_next s hsp, exec_ret_next (s.setI a) hsp]; rfl

theorem exec_call_setI (nnn : Addr12) :
    exec (.call nnn) (s.setI a) = mapNext (·.setI a) (exec (.call nnn) s) := by
  by_cases hsp : s.sp = 16
  · rw [exec_call_fault s nnn hsp, exec_call_fault (s.setI a) nnn hsp]; rfl
  · have room : s.sp.val < 16 := Fin.val_lt_last hsp
    rw [exec_call_next s nnn room, exec_call_next (s.setI a) nnn room]; rfl

theorem exec_ldVxKey_setI (x : Nibble) :
    exec (.ldVxKey x) (s.setI a) = mapNext (·.setI a) (exec (.ldVxKey x) s) := by
  cases hk : s.firstKey? with
  | some k => rw [exec_ldVxKey_some s x hk, exec_ldVxKey_some (s.setI a) x hk]; rfl
  | none => rw [exec_ldVxKey_none s x hk, exec_ldVxKey_none (s.setI a) x hk]; rfl

end

/-- An instruction that neither accesses memory at `I` nor writes `I` does the same whatever `I` holds, and keeps it. -/
theorem exec_setI {i : Instr} (s : State) (a : Word) (hread : indexBytes? i = none) (hwrite : .index ∉ writtenParts i) :
    exec i (s.setI a) = mapNext (·.setI a) (exec i s) := by
  cases i with
  | ret => exact exec_ret_setI s a
  | call nnn => exact exec_call_setI s a nnn
  | seImm _ _ | sneImm _ _ | seReg _ _ | sneReg _ _ => exact congrArg Host.Outcome.next (s.skipIf_setI a _)
  | addReg x y => exact congrArg Host.Outcome.next (s.flaggedSum_setI a ..)
  | subReg x y | subnReg x y | shr x y | shl x y => exact congrArg Host.Outcome.next (s.flaggedReread_setI a ..)
  | skp x | sknp x => exact s.keySkip_setI a ..
  | ldVxKey x => exact exec_ldVxKey_setI s a x
  | drw _ _ _ | ldB _ | ldMemVx _ | ldVxMem _ => cases hread
  | ldI _ | addI _ | ldF _ => exact absurd (by simp) hwrite
  | cls | sys _ | jp _ | ldImm _ _ | addImm _ _ | ldReg _ _ | orReg _ _ | andReg _ _ | xorReg _ _ | jpV0 _ | rnd _ _
  | ldVxDt _ | ldDtVx _ | ldStVx _ | unimplemented _ => rfl

/-- The writers of `I` (10_state.md R26). -/
theorem index_mem_writtenParts {i : Instr} :
    Part.index ∈ writtenParts i ↔ (∃ nnn, i = .ldI nnn) ∨ (∃ x, i = .addI x) ∨ (∃ x, i = .ldF x) := by
  cases i <;> simp

/-- Settles O53. -/
theorem indexIsTouchedOnlyByItsInstructions : Obligations.IndexIsTouchedOnlyByItsInstructions := by
  refine ⟨fun i s t h hne => ?_, fun i s a hb h1 h2 h3 => ?_, fun s a nnn => rfl, fun s a x => rfl⟩
  · exact index_mem_writtenParts.mp (by_contra fun hp => hne (exec_keeps h .index hp))
  · refine exec_setI s a hb fun hw => ?_
    obtain ⟨nnn, e⟩ | ⟨x, e⟩ | ⟨x, e⟩ := index_mem_writtenParts.mp hw
    · exact h1 nnn e
    · exact h2 x e
    · exact h3 x e

/-! ## The other pieces -/

/-- Settles O54. -/
theorem onlyListedInstructionsWritePc : Obligations.OnlyListedInstructionsWritePc := by
  intro i s t h hne
  obtain e | ⟨rfl, -⟩ | ⟨nnn, rfl | rfl, -⟩ | ⟨nnn, rfl, -⟩ | ⟨x, rfl, e⟩ | ⟨hi, e⟩ := exec_pc_cases h
  · exact absurd e hne
  · exact .inl rfl
  · exact .inr (.inl ⟨nnn, .inl rfl⟩)
  · exact .inr (.inl ⟨nnn, .inr (.inl rfl)⟩)
  · exact .inr (.inl ⟨nnn, .inr (.inr rfl)⟩)
  · exact .inr (.inr (.inl ⟨x, rfl, e⟩))
  · refine .inr (.inr (.inr ⟨e, ?_⟩))
    clear h
    cases i <;> simp_all [isSkip]

/-- Settles O55: each conjunct reads one column of `writtenParts`. -/
theorem eachPieceHasItsWriters : Obligations.EachPieceHasItsWriters := by
  intro i s t h
  have same (p : Part) (hp : p ∉ writtenParts i) : p.same s t := (exec_keeps h).unchanged p hp
  clear h
  refine ⟨fun h1 h2 => same .mem ?_, fun h1 h2 => same .stack ?_, fun h1 => same .delay ?_, fun h1 => same .sound ?_,
    fun h1 h2 => same .disp ?_, fun h1 => same .clearFlag ?_, fun h1 => same .displayFlag ?_, fun h1 => same .events ?_,
    fun h1 => same .draws ?_, same .keys ?_, same .status ?_, same .phase ?_, same .config ?_, same .schedule ?_⟩
  all_goals
    clear same
    cases i <;> simp_all

/-! ## Timers -/

theorem countDown_toNat (b : Byte) : (countDown b).toNat = b.toNat - 1 := by
  unfold countDown
  split_ifs with h
  · simp [h]
  · bv_omega

theorem State.stepTimers_dt (s : State) : s.stepTimers.dt = countDown s.dt := by
  unfold State.stepTimers; split_ifs <;> rfl

theorem State.stepTimers_st (s : State) : s.stepTimers.st = countDown s.st := by
  unfold State.stepTimers; split_ifs <;> rfl

theorem State.stepTimers_events (s : State) :
    s.stepTimers.events = if s.st.toNat = 1 then s.events ++ [.soundEnd] else s.events := by
  have : s.st = 1#8 ↔ s.st.toNat = 1 := by bv_omega
  simp only [State.stepTimers, this]
  split_ifs <;> rfl

/-- In a running, booted core a timer step is `stepTimers`. -/
theorem leftBy_tickTimers {s : State} (hs : s.status = .running) (hp : s.phase = .loaded) :
    s.leftBy (perform .tickTimers s) = s.stepTimers := by
  rw [show perform .tickTimers s = .next s.stepTimers from s.ifAdmitted_eq hs hp _]; rfl

/-- Settles O46, by induction on the number of timer steps. -/
theorem timersSaturateAtZero : Obligations.TimersSaturateAtZero := by
  intro s k
  induction k generalizing s with
  | zero => intro hs hp; simp [runOps_nil]; omega
  | succ k ih =>
    intro hs hp
    have keep := keeps_stepTimers s
    obtain ⟨hdt, hst, hev⟩ := ih s.stepTimers ((keep .status (by simp)).trans hs) ((keep .phase (by simp)).trans hp)
    simp only [List.replicate_succ, runOps_cons, leftBy_tickTimers hs hp]
    rw [hdt, hst, hev, s.stepTimers_dt, s.stepTimers_st, s.stepTimers_events, countDown_toNat, countDown_toNat]
    refine ⟨by omega, by omega, ?_⟩
    by_cases hone : s.st.toNat = 1
    · simp [hone]
    · simp only [if_neg hone]
      exact if_congr (by omega) rfl rfl

/-! ## Creation -/

/-- Settles O51: every value is the one `State.created` lists. -/
theorem creationStateIsAsListed : Obligations.CreationStateIsAsListed := by
  intro c
  refine ⟨rfl, rfl, rfl, fun r => ?_, fun a => rfl, fun k hk => ?_, rfl, rfl, Display.pixel_blank, rfl, rfl, rfl, rfl⟩
  · simp [State.created, State.readV]
  · simp [State.created]

end Sys2Proof.Machine
end

section
/-! PROOF. Memory (20_memory.md): a fetch is big-endian, at any alignment, and reads what a store left. -/

namespace Sys2Proof.Machine

theorem nibble1_wordOfBytes (hi lo : Byte) : (nibble1 (wordOfBytes hi lo)).toNat = hi.toNat / 16 := by
  simp only [nibble1, BitVec.extractLsb'_toNat, wordOfBytes_toNat, Nat.shiftRight_eq_div_pow]
  omega

theorem nibble2_wordOfBytes (hi lo : Byte) : (nibble2 (wordOfBytes hi lo)).toNat = hi.toNat % 16 := by
  simp only [nibble2, BitVec.extractLsb'_toNat, wordOfBytes_toNat, Nat.shiftRight_eq_div_pow]
  omega

/-- Settles O8. -/
theorem fetchIsBigEndian : Obligations.FetchIsBigEndian := fun s hpc =>
  ⟨_, s.fetch_ok hpc, wordOfBytes_toNat _ _, nibble1_wordOfBytes _ _, nibble2_wordOfBytes _ _⟩

/-- Settles O37: the store completed, so the two bytes at `I` lie inside memory and hold V[0] and V[1]; the fetch there
is big-endian. -/
theorem storedBytesAreFetchedAsCode : Obligations.StoredBytesAreFetchedAsCode := by
  intro s t u x hwf hx hexec hmem hpc
  obtain ⟨hroom, rfl⟩ := exec_ldMemVx_eq_next hexec
  obtain ⟨op, hfetch, hword, -⟩ := fetchIsBigEndian u (by rw [hpc]; omega)
  have byte (k : Nat) (hk : k ≤ x.toNat) : u.mem.read (s.i.toNat + k) = s.readV (BitVec.ofNat 4 k) := by
    rw [hmem]
    exact s.storeRegs_inside hwf (Nat.lt_succ_of_le hk)
  have first : u.mem.read s.i.toNat = s.readV 0#4 := byte 0 (Nat.zero_le _)
  have second : u.mem.read (s.i.toNat + 1) = s.readV 1#4 := byte 1 hx
  exact ⟨op, hfetch, by rw [hword, hpc, first, second]⟩

end Sys2Proof.Machine
end

section
/-! PROOF. The encoding (30_encoding.md): the fields of a word, the decoder by major opcode, and that decoding and
encoding undo each other. -/

namespace Sys2Proof

/-! ## The fields of a word (R71) -/

section
variable {w : Word} {a b c d : Nibble} {nn : Byte} {nnn : Addr12}

theorem nibble1_toNat : (nibble1 w).toNat = w.toNat / 0x1000 := by
  simp only [nibble1, BitVec.extractLsb'_toNat, Nat.shiftRight_eq_div_pow]; omega

theorem nibble2_toNat : (nibble2 w).toNat = w.toNat / 0x100 % 0x10 := by
  simp only [nibble2, BitVec.extractLsb'_toNat, Nat.shiftRight_eq_div_pow]

theorem nibble4_toNat : (nibble4 w).toNat = w.toNat % 0x10 := by
  simp only [nibble4, BitVec.extractLsb'_toNat, Nat.shiftRight_zero]

theorem fieldNN_toNat : (fieldNN w).toNat = w.toNat % 0x100 := by
  simp only [fieldNN, BitVec.extractLsb'_toNat, Nat.shiftRight_zero]

/-- The low byte is the two low nibbles, so a row that fixes both fixes nn. -/
theorem fieldNN_eq_append_iff : fieldNN w = c ++ d ↔ nibble3 w = c ∧ nibble4 w = d := by
  have e : fieldNN w = nibble3 w ++ nibble4 w :=
    (BitVec.extractLsb'_append_extractLsb'_eq_extractLsb' (start₁ := 0) (len₁ := 4) (len₂ := 4) rfl).symm
  rw [e]
  refine ⟨fun h => ⟨?_, ?_⟩, fun ⟨h3, h4⟩ => h3 ▸ h4 ▸ rfl⟩
  · simpa only [BitVec.extractLsb'_append_eq_left] using congrArg (BitVec.extractLsb' 4 4) h
  · simpa only [BitVec.extractLsb'_append_eq_right] using congrArg (BitVec.extractLsb' 0 4) h

/-! The fields of a word put together in a format of R72 are its parts. -/

@[simp] theorem nibble1_append_nnn : nibble1 (a ++ nnn) = a := BitVec.extractLsb'_append_eq_left
@[simp] theorem fieldNNN_append_nnn : fieldNNN (a ++ nnn) = nnn := BitVec.extractLsb'_append_eq_right

@[simp] theorem nibble1_append_x_nn : nibble1 (a ++ b ++ nn) = a :=
  (congrArg nibble1 BitVec.append_assoc).trans nibble1_append_nnn
@[simp] theorem fieldX_append_x_nn : fieldX (a ++ b ++ nn) = b :=
  (BitVec.extractLsb'_append_eq_of_le (by decide)).trans BitVec.extractLsb'_append_eq_right
@[simp] theorem nibble2_append_x_nn : nibble2 (a ++ b ++ nn) = b := fieldX_append_x_nn
@[simp] theorem fieldNN_append_x_nn : fieldNN (a ++ b ++ nn) = nn := BitVec.extractLsb'_append_eq_right

@[simp] theorem nibble1_append_x_y_n : nibble1 (a ++ b ++ c ++ d) = a :=
  (congrArg nibble1 BitVec.append_assoc).trans nibble1_append_x_nn
@[simp] theorem fieldX_append_x_y_n : fieldX (a ++ b ++ c ++ d) = b :=
  (congrArg fieldX BitVec.append_assoc).trans fieldX_append_x_nn
@[simp] theorem fieldY_append_x_y_n : fieldY (a ++ b ++ c ++ d) = c :=
  (BitVec.extractLsb'_append_eq_of_le (by decide)).trans BitVec.extractLsb'_append_eq_right
@[simp] theorem fieldN_append_x_y_n : fieldN (a ++ b ++ c ++ d) = d := BitVec.extractLsb'_append_eq_right
@[simp] theorem nibble4_append_x_y_n : nibble4 (a ++ b ++ c ++ d) = d := BitVec.extractLsb'_append_eq_right

/-! Conversely, a word is put together from its fields, in each format of R72. -/

theorem append_fieldNNN (h1 : nibble1 w = a) : a ++ fieldNNN w = w := by
  subst h1
  exact BitVec.extractLsb'_append_extractLsb'

theorem append_fieldX_append (h1 : nibble1 w = a) (h : fieldNN w = nn) : a ++ fieldX w ++ nn = w := by
  subst h1 h
  calc nibble1 w ++ fieldX w ++ fieldNN w
    _ = nibble1 w ++ (fieldX w ++ fieldNN w) := BitVec.append_assoc
    _ = nibble1 w ++ fieldNNN w :=
      congrArg _ (BitVec.extractLsb'_append_extractLsb'_eq_extractLsb' (start₁ := 0) (len₁ := 8) (len₂ := 4) rfl)
    _ = w := append_fieldNNN rfl

theorem append_fieldX_append_fieldY_append (h1 : nibble1 w = a) (h4 : nibble4 w = d) :
    a ++ fieldX w ++ fieldY w ++ d = w :=
  BitVec.append_assoc.trans (append_fieldX_append h1 (fieldNN_eq_append_iff.mpr ⟨rfl, h4⟩))

end

theorem nibble_cases (a : Nibble) : a = 0x0#4 ∨ a = 0x1#4 ∨ a = 0x2#4 ∨ a = 0x3#4 ∨ a = 0x4#4 ∨ a = 0x5#4 ∨ a = 0x6#4 ∨
    a = 0x7#4 ∨ a = 0x8#4 ∨ a = 0x9#4 ∨ a = 0xA#4 ∨ a = 0xB#4 ∨ a = 0xC#4 ∨ a = 0xD#4 ∨ a = 0xE#4 ∨ a = 0xF#4 := by
  revert a; decide

/-! ## Decoding, one lemma per major opcode (R75) -/

section
variable {w : Word}

/-- A pattern matches when each nibble it fixes is the word's. -/
theorem nibblesMatch_iff {p1 p2 p3 p4 : Option Nibble} : nibblesMatch w p1 p2 p3 p4 = true ↔
    (∀ a ∈ p1, nibble1 w = a) ∧ (∀ b ∈ p2, nibble2 w = b) ∧ (∀ c ∈ p3, nibble3 w = c) ∧ (∀ d ∈ p4, nibble4 w = d) := by
  have all_iff (p : Option Nibble) (a : Nibble) : p.all (· == a) = true ↔ ∀ b ∈ p, a = b := by
    cases p with
    | none => simp
    | some b => simpa using eq_comm
  simp only [nibblesMatch, Bool.and_eq_true, all_iff, and_assoc]

@[simp] theorem decode_major0 (h : nibble1 w = 0x0#4) : decode w =
    if nibble2 w = 0x0#4 then
      if fieldNN w = 0xE0#8 then .cls else if fieldNN w = 0xEE#8 then .ret else .sys (fieldNN w)
    else .unimplemented w := by
  by_cases h2 : nibble2 w = 0x0#4 <;> simp [decode, nibblesMatch_iff, ← fieldNN_eq_append_iff, h, h2]

@[simp] theorem decode_major1 (h : nibble1 w = 0x1#4) : decode w = .jp (fieldNNN w) := by
  simp [decode, nibblesMatch_iff, h]

@[simp] theorem decode_major2 (h : nibble1 w = 0x2#4) : decode w = .call (fieldNNN w) := by
  simp [decode, nibblesMatch_iff, h]

@[simp] theorem decode_major3 (h : nibble1 w = 0x3#4) : decode w = .seImm (fieldX w) (fieldNN w) := by
  simp [decode, nibblesMatch_iff, h]

@[simp] theorem decode_major4 (h : nibble1 w = 0x4#4) : decode w = .sneImm (fieldX w) (fieldNN w) := by
  simp [decode, nibblesMatch_iff, h]

@[simp] theorem decode_major5 (h : nibble1 w = 0x5#4) : decode w =
    if nibble4 w = 0x0#4 then .seReg (fieldX w) (fieldY w) else .unimplemented w := by
  simp [decode, nibblesMatch_iff, h]

@[simp] theorem decode_major6 (h : nibble1 w = 0x6#4) : decode w = .ldImm (fieldX w) (fieldNN w) := by
  simp [decode, nibblesMatch_iff, h]

@[simp] theorem decode_major7 (h : nibble1 w = 0x7#4) : decode w = .addImm (fieldX w) (fieldNN w) := by
  simp [decode, nibblesMatch_iff, h]

@[simp] theorem decode_major8 (h : nibble1 w = 0x8#4) : decode w =
    if nibble4 w = 0x0#4 then .ldReg (fieldX w) (fieldY w) else
    if nibble4 w = 0x1#4 then .orReg (fieldX w) (fieldY w) else
    if nibble4 w = 0x2#4 then .andReg (fieldX w) (fieldY w) else
    if nibble4 w = 0x3#4 then .xorReg (fieldX w) (fieldY w) else
    if nibble4 w = 0x4#4 then .addReg (fieldX w) (fieldY w) else
    if nibble4 w = 0x5#4 then .subReg (fieldX w) (fieldY w) else
    if nibble4 w = 0x7#4 then .subnReg (fieldX w) (fieldY w) else
    if nibble4 w = 0x6#4 then .shr (fieldX w) (fieldY w) else
    if nibble4 w = 0xE#4 then .shl (fieldX w) (fieldY w) else
    .unimplemented w := by
  simp [decode, nibblesMatch_iff, h]

@[simp] theorem decode_major9 (h : nibble1 w = 0x9#4) : decode w =
    if nibble4 w = 0x0#4 then .sneReg (fieldX w) (fieldY w) else .unimplemented w := by
  simp [decode, nibblesMatch_iff, h]

@[simp] theorem decode_majorA (h : nibble1 w = 0xA#4) : decode w = .ldI (fieldNNN w) := by
  simp [decode, nibblesMatch_iff, h]

@[simp] theorem decode_majorB (h : nibble1 w = 0xB#4) : decode w = .jpV0 (fieldNNN w) := by
  simp [decode, nibblesMatch_iff, h]

@[simp] theorem decode_majorC (h : nibble1 w = 0xC#4) : decode w = .rnd (fieldX w) (fieldNN w) := by
  simp [decode, nibblesMatch_iff, h]

@[simp] theorem decode_majorD (h : nibble1 w = 0xD#4) : decode w = .drw (fieldX w) (fieldY w) (fieldN w) := by
  simp [decode, nibblesMatch_iff, h]

@[simp] theorem decode_majorE (h : nibble1 w = 0xE#4) : decode w =
    if fieldNN w = 0x9E#8 then .skp (fieldX w) else
    if fieldNN w = 0xA1#8 then .sknp (fieldX w) else
    .unimplemented w := by
  simp [decode, nibblesMatch_iff, ← fieldNN_eq_append_iff, h]

@[simp] theorem decode_majorF (h : nibble1 w = 0xF#4) : decode w =
    if fieldNN w = 0x07#8 then .ldVxDt (fieldX w) else
    if fieldNN w = 0x0A#8 then .ldVxKey (fieldX w) else
    if fieldNN w = 0x15#8 then .ldDtVx (fieldX w) else
    if fieldNN w = 0x18#8 then .ldStVx (fieldX w) else
    if fieldNN w = 0x1E#8 then .addI (fieldX w) else
    if fieldNN w = 0x29#8 then .ldF (fieldX w) else
    if fieldNN w = 0x33#8 then .ldB (fieldX w) else
    if fieldNN w = 0x55#8 then .ldMemVx (fieldX w) else
    if fieldNN w = 0x65#8 then .ldVxMem (fieldX w) else
    .unimplemented w := by
  simp [decode, nibblesMatch_iff, ← fieldNN_eq_append_iff, h]

/-! ## Unimplemented words (R77) -/

/-- The table of R77 in terms of the word's fields. -/
theorem isUnimplementedWord_iff : isUnimplementedWord w = true ↔
    (nibble1 w = 0x0#4 ∧ nibble2 w ≠ 0x0#4) ∨ (nibble1 w = 0x5#4 ∧ nibble4 w ≠ 0x0#4) ∨
    (nibble1 w = 0x8#4 ∧ nibble4 w ∈ [0x8#4, 0x9#4, 0xA#4, 0xB#4, 0xC#4, 0xD#4, 0xF#4]) ∨
    (nibble1 w = 0x9#4 ∧ nibble4 w ≠ 0x0#4) ∨
    (nibble1 w = 0xE#4 ∧ fieldNN w ∉ [0x9E#8, 0xA1#8]) ∨
    (nibble1 w = 0xF#4 ∧ fieldNN w ∉ [0x07#8, 0x0A#8, 0x15#8, 0x18#8, 0x1E#8, 0x29#8, 0x33#8, 0x55#8, 0x65#8]) := by
  have range : 0x0100 ≤ w.toNat ∧ w.toNat ≤ 0x0FFF ↔ w.toNat / 0x1000 = 0 ∧ w.toNat / 0x100 % 0x10 ≠ 0 := by omega
  simp [isUnimplementedWord, BitVec.toNat_eq, nibble1_toNat, nibble2_toNat, nibble4_toNat, fieldNN_toNat, or_assoc, range]

/-- The decoder answers the catch-all row exactly on the words R77 lists. -/
theorem decode_eq_unimplemented_iff : decode w = .unimplemented w ↔ isUnimplementedWord w = true := by
  rw [isUnimplementedWord_iff]
  rcases nibble_cases (nibble1 w) with h | h | h | h | h | h | h | h | h | h | h | h | h | h | h | h
  · rw [decode_major0 h]; split_ifs <;> simp [*]
  · simp [h]
  · simp [h]
  · simp [h]
  · simp [h]
  · simp [h]
  · simp [h]
  · simp [h]
  · rcases nibble_cases (nibble4 w) with h4 | h4 | h4 | h4 | h4 | h4 | h4 | h4 | h4 | h4 | h4 | h4 | h4 | h4 | h4 | h4 <;>
      simp [h, h4]
  · simp [h]
  · simp [h]
  · simp [h]
  · simp [h]
  · simp [h]
  · rw [decode_majorE h]; split_ifs <;> simp [*]
  · rw [decode_majorF h]; split_ifs <;> simp [*]

/-! ## Decoding and encoding undo each other -/

/-- 00NN is put together as a register and an immediate with register 0 are. -/
theorem encode_sys (nn : Byte) : encode (.sys nn) = 0x0#4 ++ 0x0#4 ++ nn := rfl

theorem decode_encode_sys {nn : Byte} (h : (Instr.sys nn).wf = true) : decode (encode (.sys nn)) = .sys nn := by
  obtain ⟨hcls, hret⟩ : nn ≠ 0xE0#8 ∧ nn ≠ 0xEE#8 := by simpa [Instr.wf, isSysByte] using h
  rw [encode_sys, decode_major0 nibble1_append_x_nn, if_pos nibble2_append_x_nn, fieldNN_append_x_nn, if_neg hcls,
    if_neg hret]

theorem encode_sys_eq {nn : Byte} (h1 : nibble1 w = 0x0#4) (h2 : nibble2 w = 0x0#4) (h : fieldNN w = nn) :
    encode (.sys nn) = w := by
  have hx : fieldX w = 0x0#4 := h2
  rw [encode_sys]
  simpa only [hx] using append_fieldX_append h1 h

/-- By major opcode: the row taken fixes the bits that its encoding writes, and the operand fields are the others. -/
theorem encode_decode : encode (decode w) = w := by
  rcases nibble_cases (nibble1 w) with h | h | h | h | h | h | h | h | h | h | h | h | h | h | h | h
  · rw [decode_major0 h]
    split_ifs with h2 hcls hret
    · exact (encode_sys_eq h h2 hcls :)
    · exact (encode_sys_eq h h2 hret :)
    · exact encode_sys_eq h h2 rfl
    · rfl
  · rw [decode_major1 h]; exact append_fieldNNN h
  · rw [decode_major2 h]; exact append_fieldNNN h
  · rw [decode_major3 h]; exact append_fieldX_append h rfl
  · rw [decode_major4 h]; exact append_fieldX_append h rfl
  · rw [decode_major5 h]; split_ifs <;> simp [encode, append_fieldX_append_fieldY_append, *]
  · rw [decode_major6 h]; exact append_fieldX_append h rfl
  · rw [decode_major7 h]; exact append_fieldX_append h rfl
  · rw [decode_major8 h]; split_ifs <;> simp [encode, append_fieldX_append_fieldY_append, *]
  · rw [decode_major9 h]; split_ifs <;> simp [encode, append_fieldX_append_fieldY_append, *]
  · rw [decode_majorA h]; exact append_fieldNNN h
  · rw [decode_majorB h]; exact append_fieldNNN h
  · rw [decode_majorC h]; exact append_fieldX_append h rfl
  · rw [decode_majorD h]; exact append_fieldX_append_fieldY_append h rfl
  · rw [decode_majorE h]; split_ifs <;> simp [encode, append_fieldX_append, *]
  · rw [decode_majorF h]; split_ifs <;> simp [encode, append_fieldX_append, *]

theorem eq_of_decode_eq_unimplemented {op : Word} (h : decode w = .unimplemented op) : op = w := by
  simpa only [h, encode] using encode_decode (w := w)

/-- A decoded SYS byte is not one of the two earlier rows, and a decoded catch-all word is one R77 lists. -/
theorem wf_decode : (decode w).wf = true := by
  cases h : decode w with
  | sys nn =>
    have hw : encode (.sys nn) = w := h ▸ encode_decode
    have hcls : nn ≠ 0xE0#8 := by rintro rfl; exact absurd (hw ▸ h) (by decide)
    have hret : nn ≠ 0xEE#8 := by rintro rfl; exact absurd (hw ▸ h) (by decide)
    simp [Instr.wf, isSysByte, hcls, hret]
  | unimplemented op =>
    obtain rfl := eq_of_decode_eq_unimplemented h
    exact decode_eq_unimplemented_iff.mp h
  | _ => rfl

end

/-! ## The statements -/

/-- Settles O1: the fields of the encoded word are the operands, and its major opcode picks the row. -/
theorem decodeOfEncodeIsIdentity : Obligations.DecodeOfEncodeIsIdentity := by
  intro i hwf
  cases i with
  | cls | ret => rfl
  | sys nn => exact decode_encode_sys hwf
  | unimplemented op => exact decode_eq_unimplemented_iff.mpr hwf
  | _ => simp [encode]

/-- Settles O2. -/
theorem encodeOfDecodeIsIdentity : Obligations.EncodeOfDecodeIsIdentity := fun _ => ⟨wf_decode, encode_decode⟩

/-- Settles O4: no class of R77's table has one of the other majors. -/
theorem unimplementedWordsAreThoseListed : Obligations.UnimplementedWordsAreThoseListed := by
  refine ⟨fun w => decode_eq_unimplemented_iff, fun w op => eq_of_decode_eq_unimplemented, fun w hmajor h => ?_⟩
  rw [decode_eq_unimplemented_iff, isUnimplementedWord_iff] at h
  rw [← nibble1_toNat] at hmajor
  obtain ⟨e, -⟩ | ⟨e, -⟩ | ⟨e, -⟩ | ⟨e, -⟩ | ⟨e, -⟩ | ⟨e, -⟩ := h <;> rw [e] at hmajor <;> exact absurd hmajor (by decide)

/-- Settles O5. -/
theorem specExampleWordsDecode : Obligations.SpecExampleWordsDecode := by
  unfold Obligations.SpecExampleWordsDecode; decide

end Sys2Proof
end

section
/-! PROOF. The cycle (40_cycle.md): the row a word is decoded by, what a tick and a step do, what a fault leaves, and
the pieces of the state an instruction does not read. -/

namespace Sys2Proof

/-! ## The row a word is matched by (R93) -/

section
variable {w : Word}

/-- The bits that one place of a nibble pattern fixes: all four, or none at a wildcard. -/
def nibbleMask (p : Option Nibble) : Nibble := if p.isSome then 0xF#4 else 0x0#4

theorem and_nibbleMask_iff {a : Nibble} {p : Option Nibble} : a &&& nibbleMask p = p.getD 0x0#4 ↔ ∀ b ∈ p, a = b := by
  cases p with
  | none => simp [nibbleMask]
  | some b =>
    have all : a &&& 0xF#4 = a := BitVec.and_allOnes
    simp [nibbleMask, all]

theorem append_eq_append_iff {m n : Nat} {a c : BitVec m} {b d : BitVec n} : a ++ b = c ++ d ↔ a = c ∧ b = d := by
  refine ⟨fun h => ⟨?_, ?_⟩, fun ⟨e1, e2⟩ => e1 ▸ e2 ▸ rfl⟩
  · simpa only [BitVec.extractLsb'_append_eq_left] using congrArg (BitVec.extractLsb' n m) h
  · simpa only [BitVec.extractLsb'_append_eq_right] using congrArg (BitVec.extractLsb' 0 n) h

/-- Masking nibbles one by one is masking the word. -/
theorem and_append_nibbles_iff {a b c d a' b' c' d' a'' b'' c'' d'' : Nibble} :
    (a ++ b ++ c ++ d) &&& (a' ++ b' ++ c' ++ d') = a'' ++ b'' ++ c'' ++ d'' ↔
      a &&& a' = a'' ∧ b &&& b' = b'' ∧ c &&& c' = c'' ∧ d &&& d' = d'' := by
  simp only [BitVec.and_append, append_eq_append_iff, and_assoc]

/-- The row fixes exactly the nibbles of this pattern, at their values: the two columns of the opcode map agree (R75). -/
def OpcodeRow.HasNibbles (r : OpcodeRow) (p1 p2 p3 p4 : Option Nibble) : Prop :=
  r.mask = nibbleMask p1 ++ nibbleMask p2 ++ nibbleMask p3 ++ nibbleMask p4 ∧
  r.pattern = p1.getD 0x0#4 ++ p2.getD 0x0#4 ++ p3.getD 0x0#4 ++ p4.getD 0x0#4

theorem OpcodeRow.HasNibbles.selects_eq {r : OpcodeRow} {p1 p2 p3 p4 : Option Nibble} (h : r.HasNibbles p1 p2 p3 p4) :
    r.selects w = nibblesMatch w p1 p2 p3 p4 := by
  obtain ⟨hmask, hpattern⟩ := h
  have word : w = nibble1 w ++ nibble2 w ++ nibble3 w ++ nibble4 w := (append_fieldX_append_fieldY_append rfl rfl).symm
  rw [Bool.eq_iff_iff, nibblesMatch_iff, OpcodeRow.selects, beq_iff_eq, hmask, hpattern]
  conv_lhs => rw [word]
  refine and_append_nibbles_iff.trans ?_
  simp only [and_nibbleMask_iff]

/-- `i` is what the first of these rows whose masked bits match reads from the word (R93). -/
def IsFirstMatch (w : Word) (rows : List OpcodeRow) (i : Instr) : Prop :=
  ∃ before row after, rows = before ++ row :: after ∧ row.selects w = true ∧
    (∀ r ∈ before, r.selects w = false) ∧ i = row.build w

theorem IsFirstMatch.head {r : OpcodeRow} {rows : List OpcodeRow} (h : r.selects w = true) :
    IsFirstMatch w (r :: rows) (r.build w) :=
  ⟨[], r, rows, rfl, h, nofun, rfl⟩

theorem IsFirstMatch.tail {r : OpcodeRow} {rows : List OpcodeRow} {i : Instr} (h : r.selects w = false)
    (hrows : IsFirstMatch w rows i) : IsFirstMatch w (r :: rows) i := by
  obtain ⟨before, row, after, rfl, hrow, hbefore, hi⟩ := hrows
  exact ⟨r :: before, row, after, rfl, hrow, List.forall_mem_cons.mpr ⟨h, hbefore⟩, hi⟩

/-- One test of the decoder is one row of the opcode map. -/
theorem IsFirstMatch.ite {r : OpcodeRow} {rows : List OpcodeRow} {i : Instr} {p1 p2 p3 p4 : Option Nibble}
    (hr : r.HasNibbles p1 p2 p3 p4) (hrows : IsFirstMatch w rows i) :
    IsFirstMatch w (r :: rows) (if nibblesMatch w p1 p2 p3 p4 then r.build w else i) := by
  split_ifs with h
  · exact .head (hr.selects_eq.trans h)
  · exact .tail (hr.selects_eq.trans (Bool.eq_false_iff.mpr h)) hrows

/-- The decoder tests the 35 rows before the catch-all row one after another, and its last answer is that row's. -/
theorem decode_isFirstMatch : IsFirstMatch w opcodeTable (decode w) := by
  iterate 35 refine .ite ⟨by decide, by decide⟩ ?_
  exact .head (by simp [OpcodeRow.selects])

end

/-- Settles O3. -/
theorem decodeIsFirstMatchingRow : Obligations.DecodeIsFirstMatchingRow := fun _ => decode_isFirstMatch

end Sys2Proof

namespace Sys2Proof.Machine

/-! ## A step and a tick (R91-R94, R99) -/

theorem State.nextOp_op (s : State) : s.nextOp.1 = s.schedule.headD .tick := by
  cases h : s.schedule with
  | nil => rw [s.nextOp_nil h]; rfl
  | cons op ops => rw [s.nextOp_cons h]; rfl

theorem step_eq_perform (s : State) : step s = perform (s.schedule.headD .tick) (s.setSchedule s.schedule.tail) := by
  rw [step, s.nextOp_op, s.nextOp_state]

section
variable {s : State}

/-- A running, booted core executes the word at `pc`, past its two bytes. -/
theorem perform_tick_eq_exec (hs : s.status = .running) (hp : s.phase = .loaded) (hpc : s.pc.toNat + 1 < 4096) :
    perform .tick s = exec (decode (s.mem.readWord s.pc.toNat)) (s.setPc (s.pc + 2#16)) := by
  simp only [perform, opTick, s.ifAdmitted_eq hs hp, s.fetch_ok hpc, State.advance_eq]

/-- And faults where one of them lies past 0xFFF. -/
theorem perform_tick_eq_fetchFault (hs : s.status = .running) (hp : s.phase = .loaded) (hpc : 4096 ≤ s.pc.toNat + 1) :
    perform .tick s = .fault (.fetchOutOfRange s.pc (lowestOutOfRange s.pc.toNat)) := by
  simp only [perform, opTick, s.ifAdmitted_eq hs hp, s.fetch_error hpc]

end

/-- Settles O6. -/
theorem stepRunsTheDecodedInstruction : Obligations.StepRunsTheDecodedInstruction := by
  refine ⟨fun s i hs hp htick hpc hdecode => ?_, step_eq_perform⟩
  obtain rfl : decode (s.mem.readWord s.pc.toNat) = i := by cases hdecode; rfl
  rw [step_eq_perform, htick]
  exact perform_tick_eq_exec hs hp hpc

/-- Settles O7. -/
theorem fetchPastMemoryFaults : Obligations.FetchPastMemoryFaults := fun _ => perform_tick_eq_fetchFault

/-! ## After a fault or a refusal (R97, R98) -/

theorem keeps_takeFault (s : State) (f : Fault) : Keeps [.status] s (s.takeFault f) := by
  intro p hp
  cases p <;> simp_all [Part.kept, Part.same]

/-- Settles O9. -/
theorem faultingOperationChangesOnlyStatus : Obligations.FaultingOperationChangesOnlyStatus := by
  refine ⟨fun op s f h => ?_, fun op s r h => ?_⟩ <;> rw [h]
  · exact ⟨(keeps_takeFault s f).unchanged, rfl⟩
  · rfl

section
variable {s : State} {f : Fault} {op : HostOp}

theorem perform_of_isRead (h : op.isRead = true) : perform op s = .next s := by
  cases op with
  | display | flags | status => rfl
  | _ => cases h

/-- Every operation but the reads is admitted by `ifAdmitted`, which refuses it in a faulted core. -/
theorem perform_of_faulted (hs : s.status = .faulted f) (h : op.isRead = false) : perform op s = .refused .coreFaulted := by
  cases op with
  | display | flags | status => cases h
  | _ => exact s.ifAdmitted_faulted hs _ _

theorem leftBy_perform_of_faulted (hs : s.status = .faulted f) : s.leftBy (perform op s) = s := by
  cases h : op.isRead with
  | true => rw [perform_of_isRead h, s.leftBy_next]
  | false => rw [perform_of_faulted hs h, s.leftBy_refused]

theorem runOps_of_faulted (hs : s.status = .faulted f) (ops : List HostOp) : runOps ops s = s := by
  induction ops with
  | nil => rfl
  | cons op ops ih => rw [runOps_cons, leftBy_perform_of_faulted hs, ih]

end

/-- Settles O12. -/
theorem faultedCoreIsFrozen : Obligations.FaultedCoreIsFrozen := fun _ _ hs =>
  ⟨fun _ => perform_of_faulted hs, fun _ => perform_of_isRead, runOps_of_faulted hs⟩

/-! ## What an instruction does not read (R94) -/

/-- Other keys, another ST and other dirty flags to put into a state; `none` leaves the piece as it is. -/
structure Overlay where
  keys : Option (Vector Bool 16) := none
  sound : Option Byte := none
  clearFlag : Option Bool := none
  displayFlag : Option Bool := none

/-- The state with the pieces of an overlay put in. -/
def Overlay.on (o : Overlay) (s : State) : State :=
  { s with
    keys := o.keys.getD s.keys
    st := o.sound.getD s.st
    clearFlag := o.clearFlag.getD s.clearFlag
    displayFlag := o.displayFlag.getD s.displayFlag }

/-- The instructions that read the keys (45_keys_timers.md R180, R181, R183). -/
def readsKeys : Instr → Bool
  | .skp _ | .sknp _ | .ldVxKey _ => true
  | _ => false

/-- The overlay changes no piece that the instruction reads or writes. -/
structure Overlay.Unused (o : Overlay) (i : Instr) : Prop where
  keys : readsKeys i = true → o.keys = none := by intro; rfl
  sound : .sound ∈ writtenParts i → o.sound = none := by intro; rfl
  clearFlag : .clearFlag ∈ writtenParts i → o.clearFlag = none := by intro; rfl
  displayFlag : .displayFlag ∈ writtenParts i → o.displayFlag = none := by intro; rfl

section
variable (o : Overlay) (s : State)

theorem Overlay.on_config : (o.on s).config = s.config := rfl

theorem Overlay.on_indexFault? (k : Nat) : (o.on s).indexFault? k = s.indexFault? k := rfl

theorem Overlay.on_skipIf (test : Bool) : (o.on s).skipIf test = o.on (s.skipIf test) := by
  cases test <;> rfl

theorem Overlay.on_flaggedSum (x y : Nibble) (flag res : Byte → Byte → Byte) :
    (o.on s).flaggedSum x y flag res = o.on (s.flaggedSum x y flag res) := by
  unfold State.flaggedSum
  rw [o.on_config]
  split <;> rfl

theorem Overlay.on_flaggedReread (x y : Nibble) (flag res : Byte → Byte → Byte) :
    (o.on s).flaggedReread x y flag res = o.on (s.flaggedReread x y flag res) := by
  unfold State.flaggedReread
  rw [o.on_config]
  split <;> rfl

theorem Overlay.on_storeRegs (n : Nat) : (o.on s).storeRegs n = s.storeRegs n := by
  induction n with
  | zero => rfl
  | succ n ih => rw [State.storeRegs, ih]; rfl

theorem Overlay.on_loadRegs (n : Nat) : (o.on s).loadRegs n = o.on (s.loadRegs n) := by
  induction n with
  | zero => rfl
  | succ n ih => rw [State.loadRegs, ih]; rfl

theorem Overlay.on_checkedIndex (k : Nat) (i : Instr) {t u : State} (h : u = o.on t) :
    (o.on s).checkedIndex k i u = mapNext o.on (s.checkedIndex k i t) := by
  subst h
  unfold State.checkedIndex
  rw [o.on_indexFault?]
  split <;> rfl

theorem Overlay.on_keyHeld (hkeys : o.keys = none) : (o.on s).keyHeld = s.keyHeld := by
  funext k
  simp only [State.keyHeld, Overlay.on, hkeys, Option.getD_none]

theorem Overlay.on_keySkip (hkeys : o.keys = none) (x : Nibble) (i : Instr) (pressed : Bool) :
    (o.on s).keySkip x i pressed = mapNext o.on (s.keySkip x i pressed) := by
  by_cases hk : (s.readV x).toNat < 16
  · rw [s.keySkip_lt hk, (o.on s).keySkip_lt hk, o.on_keyHeld s hkeys, o.on_skipIf]; rfl
  · rw [s.keySkip_ge (by omega), (o.on s).keySkip_ge (Nat.not_lt.mp hk)]; rfl

theorem Overlay.on_finishDraw (hflag : o.displayFlag = none) (d : Drawing) :
    (o.on s).finishDraw d = o.on (s.finishDraw d) := by
  cases o; cases hflag; rfl

theorem exec_ret_on : exec .ret (o.on s) = mapNext o.on (exec .ret s) := by
  by_cases hsp : s.sp.val = 0
  · rw [exec_ret_fault s (Fin.ext hsp), exec_ret_fault (o.on s) (Fin.ext hsp)]; rfl
  · rw [exec_ret_next s hsp, exec_ret_next (o.on s) hsp]; rfl

theorem exec_call_on (nnn : Addr12) : exec (.call nnn) (o.on s) = mapNext o.on (exec (.call nnn) s) := by
  by_cases hsp : s.sp = 16
  · rw [exec_call_fault s nnn hsp, exec_call_fault (o.on s) nnn hsp]; rfl
  · have room : s.sp.val < 16 := Fin.val_lt_last hsp
    rw [exec_call_next s nnn room, exec_call_next (o.on s) nnn room]; rfl

theorem exec_ldVxKey_on (hkeys : o.keys = none) (x : Nibble) :
    exec (.ldVxKey x) (o.on s) = mapNext o.on (exec (.ldVxKey x) s) := by
  have first : (o.on s).firstKey? = s.firstKey? := by simp only [State.firstKey?, o.on_keyHeld s hkeys]
  cases hk : s.firstKey? with
  | some k => rw [exec_ldVxKey_some s x hk, exec_ldVxKey_some (o.on s) x (first.trans hk)]; rfl
  | none => rw [exec_ldVxKey_none s x hk, exec_ldVxKey_none (o.on s) x (first.trans hk)]; rfl

end

/-- An instruction that neither reads nor writes the pieces an overlay changes does the same under it, and keeps them. -/
theorem Overlay.Unused.exec_on {o : Overlay} {i : Instr} (h : o.Unused i) (s : State) :
    exec i (o.on s) = mapNext o.on (exec i s) := by
  obtain ⟨hkeys, hsound, hclear, hdisplay⟩ := h
  cases i with
  | cls => cases o; cases hclear (by simp); rfl
  | ldStVx x => cases o; cases hsound (by simp); rfl
  | drw x y n => exact o.on_checkedIndex s _ _ (o.on_finishDraw s (hdisplay (by simp)) _)
  | skp x | sknp x => exact o.on_keySkip s (hkeys rfl) ..
  | ldVxKey x => exact exec_ldVxKey_on o s (hkeys rfl) x
  | ret => exact exec_ret_on o s
  | call nnn => exact exec_call_on o s nnn
  | seImm _ _ | sneImm _ _ | seReg _ _ | sneReg _ _ => exact congrArg Host.Outcome.next (o.on_skipIf s _)
  | addReg x y => exact congrArg Host.Outcome.next (o.on_flaggedSum s ..)
  | subReg x y | subnReg x y | shr x y | shl x y => exact congrArg Host.Outcome.next (o.on_flaggedReread s ..)
  | ldB x => exact o.on_checkedIndex s _ _ rfl
  | ldMemVx x => exact o.on_checkedIndex s _ _ (congrArg (o.on s).setMem (o.on_storeRegs s _))
  | ldVxMem x => exact o.on_checkedIndex s _ _ (o.on_loadRegs s _)
  | sys _ | jp _ | ldImm _ _ | addImm _ _ | ldReg _ _ | orReg _ _ | andReg _ _ | xorReg _ _ | ldI _ | jpV0 _ | rnd _ _
  | ldVxDt _ | ldDtVx _ | addI _ | ldF _ | unimplemented _ => rfl

/-! The updates of one such piece, each an overlay by definition. -/

section
variable {i : Instr} (s : State)

theorem exec_setKeys (k : Vector Bool 16) (h : readsKeys i = false) :
    exec i (s.setKeys k) = mapNext (·.setKeys k) (exec i s) :=
  Overlay.Unused.exec_on (o := { keys := some k }) { keys := fun hr => nomatch h.symm.trans hr } s

theorem exec_setSt (b : Byte) (h : .sound ∉ writtenParts i) :
    exec i (s.setSt b) = mapNext (·.setSt b) (exec i s) :=
  Overlay.Unused.exec_on (o := { sound := some b }) { sound := fun hw => absurd hw h } s

theorem exec_setClearFlag (b : Bool) (h : .clearFlag ∉ writtenParts i) :
    exec i (s.setClearFlag b) = mapNext (·.setClearFlag b) (exec i s) :=
  Overlay.Unused.exec_on (o := { clearFlag := some b }) { clearFlag := fun hw => absurd hw h } s

theorem exec_setDisplayFlag (b : Bool) (h : .displayFlag ∉ writtenParts i) :
    exec i (s.setDisplayFlag b) = mapNext (·.setDisplayFlag b) (exec i s) :=
  Overlay.Unused.exec_on (o := { displayFlag := some b }) { displayFlag := fun hw => absurd hw h } s

end

/-- Settles O56: the instructions each conjunct leaves out are the readers of the keys, and the writers of ST and of each
dirty flag in `writtenParts`. -/
theorem unreadStateDoesNotMatter : Obligations.UnreadStateDoesNotMatter := by
  refine ⟨fun i s k h1 h2 h3 => exec_setKeys s k ?_, fun i s b h => exec_setSt s b ?_,
    fun i s b h => exec_setClearFlag s b ?_, fun i s b h => exec_setDisplayFlag s b ?_⟩
  · cases i <;> simp_all [readsKeys]
  · cases i <;> simp_all
  · cases i <;> simp_all
  · cases i <;> simp_all

end Sys2Proof.Machine
end

section
/-! PROOF. Control flow (41_flow.md): the words of the skips, the targets of the jumps, the return and the call on the
stack, and the words that change nothing. -/

namespace Sys2Proof

/-! ## The fields that a row's mask fixes (30_encoding.md R75) -/

section
variable {w m p : Word}

/-- A field whose bits the mask covers is the pattern's. -/
theorem extractLsb'_eq_of_and_eq {start len : Nat} (hm : m.extractLsb' start len = BitVec.allOnes len) (h : w &&& m = p) :
    w.extractLsb' start len = p.extractLsb' start len := by
  rw [← h, BitVec.extractLsb'_and, hm, BitVec.and_allOnes]

theorem nibble1_eq_of_and_eq (hm : nibble1 m = 0xF#4) (h : w &&& m = p) : nibble1 w = nibble1 p :=
  extractLsb'_eq_of_and_eq hm h

theorem nibble4_eq_of_and_eq (hm : nibble4 m = 0xF#4) (h : w &&& m = p) : nibble4 w = nibble4 p :=
  extractLsb'_eq_of_and_eq hm h

end

end Sys2Proof

namespace Sys2Proof.Machine

/-! ## The targets (R102, R103, R108) -/

theorem addressOf_toNat (nnn : Addr12) : (addressOf nnn).toNat = nnn.toNat :=
  BitVec.toNat_setWidth_of_le (by decide)

/-- The sum of twelve bits and eight never wraps. -/
theorem State.jumpV0Target_toNat (s : State) (nnn : Addr12) :
    (s.jumpV0Target nnn).toNat = nnn.toNat + (s.readV 0#4).toNat := by
  simp only [State.jumpV0Target, BitVec.toNat_ofNat]; omega

/-- Settles O18. -/
theorem jumpsGoToTheirTarget : Obligations.JumpsGoToTheirTarget :=
  ⟨fun s nnn => ⟨_, exec_jp s nnn, addressOf_toNat nnn, (exec_keeps (exec_jp s nnn)).unchanged⟩,
    fun s nnn => ⟨_, exec_jpV0 s nnn, s.jumpV0Target_toNat nnn, (exec_keeps (exec_jpV0 s nnn)).unchanged⟩⟩

/-! ## The return and the call (R100, R103) -/

section
variable {s : State} {k : Nat}

theorem exec_ret_pops (h : k < 16) (hsp : s.sp.val = k + 1) :
    ∃ t, exec .ret s = .next t ∧ t.pc = s.stack[k] ∧ t.sp.val = k ∧ t.stack = s.stack ∧ Unchanged [.pc, .stack] s t := by
  have hret := exec_ret_next s (by omega)
  exact ⟨_, hret, by simp [hsp], by simp [hsp], rfl, ((exec_keeps hret).mono (by simp)).unchanged⟩

theorem exec_call_pushes (nnn : Addr12) (h : k < 16) (hsp : s.sp.val = k) :
    ∃ t, exec (.call nnn) s = .next t ∧ t.pc = addressOf nnn ∧ t.sp.val = k + 1 ∧ t.stack = s.stack.set k s.pc ∧
      Unchanged [.pc, .stack] s t := by
  subst hsp
  have hcall := exec_call_next s nnn h
  exact ⟨_, hcall, rfl, rfl, rfl, ((exec_keeps hcall).mono (by simp)).unchanged⟩

end

/-- Settles O16: the call's entry is the top one, so the return pops the address after the call and leaves the entries
below it. -/
theorem returnUndoesCall : Obligations.ReturnUndoesCall := by
  intro s t u nnn hcall hstack hsp
  obtain ⟨room, rfl⟩ := exec_call_eq_next hcall
  obtain ⟨r, hret, hpc, hrsp, hrstack, -⟩ := exec_ret_pops room (congrArg Fin.val hsp)
  have entries : u.stack = s.stack.set s.sp.val s.pc room := hstack
  refine ⟨r, hret, ?_, Fin.ext hrsp, fun j hj below => ?_⟩
  · simp only [hpc, entries, Vector.getElem_set_self]
  · simp only [hrstack, entries, Vector.getElem_set_ne room hj (Nat.ne_of_gt below)]

/-- Settles O14. -/
theorem returnPopsTheStack : Obligations.ReturnPopsTheStack :=
  ⟨fun _ _ => exec_ret_pops, exec_ret_fault⟩

/-- Settles O15. -/
theorem callPushesTheReturnAddress : Obligations.CallPushesTheReturnAddress := by
  refine ⟨fun s nnn k h hsp => ?_, exec_call_fault⟩
  obtain ⟨t, hcall, hpc, htsp, hstack, hkeep⟩ := exec_call_pushes nnn h hsp
  refine ⟨t, hcall, hpc ▸ addressOf_toNat nnn, htsp, ?_, fun j hj hne => ?_, hkeep⟩
  · simp only [hstack, Vector.getElem_set_self]
  · simp only [hstack, Vector.getElem_set_ne h hj hne.symm]

/-! ## Words that change nothing (R101, 40_cycle.md R95) -/

/-- Settles O19. -/
theorem ignoredWordsChangeNothing : Obligations.IgnoredWordsChangeNothing := by
  refine ⟨fun nn hcls hret => ?_, fun s nn => ?_, fun s op => ?_⟩
  · exact decode_encode_sys (by simp [Instr.wf, isSysByte, hcls, hret])
  · exact ⟨s, exec_sys s nn, (Keeps.refl _ s).unchanged⟩
  · exact ⟨_, exec_unimplemented s op, rfl, (exec_keeps (exec_unimplemented s op)).unchanged⟩

/-! ## The skips (R104-R107) -/

/-- An instruction that skips on a test puts `pc` 2 further exactly when the test holds, and changes nothing else. -/
theorem exec_skips_iff {i : Instr} {s : State} {test : Bool} {P : Prop} [Decidable P]
    (h : exec i s = .next (s.skipIf test)) (htest : test = true ↔ P) :
    ∃ t, exec i s = .next t ∧ t.pc = (if P then s.pc + 2#16 else s.pc) ∧ Unchanged [.pc] s t := by
  refine ⟨_, h, ?_, (keeps_skipIf s test).unchanged⟩
  simp only [State.skipIf_eq, htest, State.setPc_pc]

/-- Settles O20. -/
theorem skipsOnAnImmediate : Obligations.SkipsOnAnImmediate :=
  ⟨fun _ h => decode_major3 (nibble1_eq_of_and_eq rfl h), fun _ h => decode_major4 (nibble1_eq_of_and_eq rfl h),
    fun s x nn => exec_skips_iff (exec_seImm s x nn) beq_iff_eq,
    fun s x nn => exec_skips_iff (exec_sneImm s x nn) bne_iff_ne⟩

/-- Settles O21: the last nibble tells the skip from the catch-all row. -/
theorem skipsOnTwoRegisters : Obligations.SkipsOnTwoRegisters := by
  refine ⟨fun w h => ?_, fun w h => ?_, fun w h1 h4 => ?_, fun s x y => ?_, fun s x y => ?_⟩
  · exact (decode_major5 (nibble1_eq_of_and_eq rfl h)).trans (if_pos (nibble4_eq_of_and_eq rfl h))
  · exact (decode_major9 (nibble1_eq_of_and_eq rfl h)).trans (if_pos (nibble4_eq_of_and_eq rfl h))
  · obtain h5 | h9 := h1
    · rw [decode_major5 h5, if_neg h4]
    · rw [decode_major9 h9, if_neg h4]
  · exact exec_skips_iff (exec_seReg s x y) beq_iff_eq
  · exact exec_skips_iff (exec_sneReg s x y) bne_iff_ne

end Sys2Proof.Machine
end

section
/-! PROOF. Registers, arithmetic and logic (42_alu.md): what the flag-writing operations leave under each VF_ALIAS_ORDER,
the instructions that use them, and that no other instruction depends on the order. -/

namespace Sys2Proof.Machine

/-! ## Where no operand is VF, the order does not matter (R132) -/

section
variable (s : State) (o : VfAliasOrder)

theorem State.skipIf_withOrder (test : Bool) : (s.withOrder o).skipIf test = (s.skipIf test).withOrder o := by
  cases test <;> rfl

theorem State.flaggedSum_withOrder {x y : Nibble} (flag res : Byte → Byte → Byte) (hx : x ≠ 15#4) :
    (s.withOrder o).flaggedSum x y flag res = (s.flaggedSum x y flag res).withOrder o := by
  rw [s.flaggedSum_eq flag res hx, (s.withOrder o).flaggedSum_eq flag res hx]; rfl

theorem State.flaggedReread_withOrder {x y : Nibble} (flag res : Byte → Byte → Byte) (hx : x ≠ 15#4) (hy : y ≠ 15#4) :
    (s.withOrder o).flaggedReread x y flag res = (s.flaggedReread x y flag res).withOrder o := by
  rw [s.flaggedReread_eq flag res hx hy, (s.withOrder o).flaggedReread_eq flag res hx hy]; rfl

theorem State.storeRegs_withOrder (n : Nat) : (s.withOrder o).storeRegs n = s.storeRegs n := by
  induction n with
  | zero => rfl
  | succ n ih => rw [State.storeRegs, ih]; rfl

theorem State.loadRegs_withOrder (n : Nat) : (s.withOrder o).loadRegs n = (s.loadRegs n).withOrder o := by
  induction n with
  | zero => rfl
  | succ n ih => rw [State.loadRegs, ih]; rfl

/-- The check reads `I` only, so a checked instruction commutes with the order where its effect does. -/
theorem State.checkedIndex_withOrder (k : Nat) (i : Instr) {t u : State} (h : u = t.withOrder o) :
    (s.withOrder o).checkedIndex k i u = mapNext (·.withOrder o) (s.checkedIndex k i t) := by
  subst h
  have same : (s.withOrder o).indexFault? k = s.indexFault? k := rfl
  unfold State.checkedIndex
  rw [same]
  split <;> rfl

theorem State.keySkip_withOrder (x : Nibble) (i : Instr) (pressed : Bool) :
    (s.withOrder o).keySkip x i pressed = mapNext (·.withOrder o) (s.keySkip x i pressed) := by
  by_cases hk : (s.readV x).toNat < 16
  · rw [s.keySkip_lt hk, (s.withOrder o).keySkip_lt hk, s.skipIf_withOrder]; rfl
  · rw [s.keySkip_ge (Nat.not_lt.mp hk), (s.withOrder o).keySkip_ge (Nat.not_lt.mp hk)]; rfl

theorem exec_ret_withOrder : exec .ret (s.withOrder o) = mapNext (·.withOrder o) (exec .ret s) := by
  by_cases hsp : s.sp = 0
  · rw [exec_ret_fault s hsp, exec_ret_fault (s.withOrder o) hsp]; rfl
  · have live : s.sp.val ≠ 0 := Fin.val_ne_of_ne hsp
    rw [exec_ret_next s live, exec_ret_next (s.withOrder o) live]; rfl

theorem exec_call_withOrder (nnn : Addr12) :
    exec (.call nnn) (s.withOrder o) = mapNext (·.withOrder o) (exec (.call nnn) s) := by
  by_cases hsp : s.sp = 16
  · rw [exec_call_fault s nnn hsp, exec_call_fault (s.withOrder o) nnn hsp]; rfl
  · have room : s.sp.val < 16 := Fin.val_lt_last hsp
    rw [exec_call_next s nnn room, exec_call_next (s.withOrder o) nnn room]; rfl

theorem exec_ldVxKey_withOrder (x : Nibble) :
    exec (.ldVxKey x) (s.withOrder o) = mapNext (·.withOrder o) (exec (.ldVxKey x) s) := by
  cases hk : s.firstKey? with
  | some k => rw [exec_ldVxKey_some s x hk, exec_ldVxKey_some (s.withOrder o) x hk]; rfl
  | none => rw [exec_ldVxKey_none s x hk, exec_ldVxKey_none (s.withOrder o) x hk]; rfl

end

/-- Settles O29: the flag-writing operations are the only ones that read the order, and where no operand is VF they give one
result under every order. -/
theorem aliasOrderMattersOnlyWhereVfIsNamed : Obligations.AliasOrderMattersOnlyWhereVfIsNamed := by
  intro i s o halu hshift
  cases i with
  | addReg x y =>
    obtain ⟨hx, -⟩ := halu x y (.inl rfl)
    exact congrArg Host.Outcome.next (s.flaggedSum_withOrder o _ _ hx)
  | subReg x y | subnReg x y =>
    obtain ⟨hx, hy⟩ := halu x y (by simp)
    exact congrArg Host.Outcome.next (s.flaggedReread_withOrder o _ _ hx hy)
  | shr x y | shl x y =>
    have hx := hshift x y (by simp)
    exact congrArg Host.Outcome.next (s.flaggedReread_withOrder o _ _ hx hx)
  | seImm _ _ | sneImm _ _ | seReg _ _ | sneReg _ _ => exact congrArg Host.Outcome.next (s.skipIf_withOrder o _)
  | ret => exact exec_ret_withOrder s o
  | call nnn => exact exec_call_withOrder s o nnn
  | skp x | sknp x => exact s.keySkip_withOrder o ..
  | ldVxKey x => exact exec_ldVxKey_withOrder s o x
  | drw _ _ _ | ldB _ => exact s.checkedIndex_withOrder o _ _ rfl
  | ldMemVx x => exact s.checkedIndex_withOrder o _ _ (congrArg (s.withOrder o).setMem (s.storeRegs_withOrder o _))
  | ldVxMem x => exact s.checkedIndex_withOrder o _ _ (s.loadRegs_withOrder o _)
  | cls | sys _ | jp _ | ldImm _ _ | addImm _ _ | ldReg _ _ | orReg _ _ | andReg _ _ | xorReg _ _ | ldI _ | jpV0 _ | rnd _ _
  | ldVxDt _ | ldDtVx _ | ldStVx _ | addI _ | ldF _ | unimplemented _ => rfl

/-! ## Instructions that write one register (R120-R125, R131) -/

/-- An instruction whose effect is one register write leaves that value there, and changes no other register or piece. -/
theorem exec_writes_reg {i : Instr} {s : State} {x : Nibble} {b : Byte} (h : exec i s = .next (s.writeV x b)) :
    ∃ t, exec i s = .next t ∧ t.readV x = b ∧ OnlyRegs [x] s t :=
  ⟨_, h, s.readV_writeV_same x b, s.onlyRegs_writeV b (List.mem_singleton_self x)⟩

/-- Settles O23. -/
theorem immediateLoadAndAdd : Obligations.ImmediateLoadAndAdd := by
  refine ⟨fun w h => decode_major6 (nibble1_eq_of_and_eq rfl h), fun w h => decode_major7 (nibble1_eq_of_and_eq rfl h),
    fun s x nn => exec_writes_reg (exec_ldImm s x nn), fun s x nn => ?_⟩
  obtain ⟨t, hexec, hsum, hframe⟩ := exec_writes_reg (exec_addImm s x nn)
  exact ⟨t, hexec, hsum ▸ BitVec.toNat_add _ _, hframe⟩

/-- Settles O24: the last nibble tells the rows of major opcode 8 apart. -/
theorem registerCopyAndLogic : Obligations.RegisterCopyAndLogic := by
  refine ⟨fun w h => ?_, fun w h => ?_, fun w h => ?_, fun w h => ?_, fun s x y => ⟨exec_writes_reg (exec_ldReg s x y),
    exec_writes_reg (exec_orReg s x y), exec_writes_reg (exec_andReg s x y), exec_writes_reg (exec_xorReg s x y)⟩⟩
  all_goals
    rw [decode_major8 (nibble1_eq_of_and_eq rfl h), nibble4_eq_of_and_eq rfl h]
    rfl

/-- Settles O30. -/
theorem randomByteIsMasked : Obligations.RandomByteIsMasked := by
  intro s x nn
  have hrnd := exec_rnd s x nn
  refine ⟨_, hrnd, State.readV_writeV_same _ x _, ?_, rfl, ((exec_keeps hrnd).mono (by simp)).unchanged, fun r hr => ?_⟩
  · rintro rfl
    rw [State.readV_writeV_same, BitVec.and_zero]
  · exact exec_readV hrnd (List.mem_singleton.not.mp hr)

/-! ## The flag-writing operations under each order (R126-R130, R132) -/

section
variable (s : State) (f r : Byte)

@[simp] theorem State.flagThenResult_readV (x : Nibble) : (s.flagThenResult x f r).readV x = r :=
  State.readV_writeV_same _ x r

@[simp] theorem State.resultThenFlag_readV_regF (x : Nibble) : (s.resultThenFlag x f r).readV 15#4 = f :=
  State.readV_writeV_same _ 15#4 f

theorem State.flagThenResult_readV_regF {x : Nibble} (hx : x ≠ 15#4) : (s.flagThenResult x f r).readV 15#4 = f :=
  (State.readV_writeV_ne _ r hx.symm).trans (s.readV_writeV_same 15#4 f)

end

section
variable {s : State} {x y : Nibble} {flag res : Byte → Byte → Byte}

theorem State.flaggedSum_of_ne_flagLast (horder : s.config.vfAliasOrder ≠ .snapshotFlagLast) :
    s.flaggedSum x y flag res = s.flagThenResult x (flag (s.readV x) (s.readV y)) (res (s.readV x) (s.readV y)) := by
  unfold State.flaggedSum
  split
  · rfl
  · rfl
  · contradiction

theorem State.flaggedSum_flagLast (horder : s.config.vfAliasOrder = .snapshotFlagLast) :
    s.flaggedSum x y flag res = s.resultThenFlag x (flag (s.readV x) (s.readV y)) (res (s.readV x) (s.readV y)) := by
  simp only [State.flaggedSum, horder]

theorem State.flaggedReread_asListed (horder : s.config.vfAliasOrder = .asListed) :
    s.flaggedReread x y flag res =
      let s1 := s.writeV 15#4 (flag (s.readV x) (s.readV y))
      s1.writeV x (res (s1.readV x) (s1.readV y)) := by
  simp only [State.flaggedReread, horder]; rfl

/-- Under the two other orders both operations read their operands before either write, so they agree. -/
theorem State.flaggedReread_eq_flaggedSum (horder : s.config.vfAliasOrder ≠ .asListed) :
    s.flaggedReread x y flag res = s.flaggedSum x y flag res := by
  unfold State.flaggedReread State.flaggedSum
  split
  · contradiction
  · rfl
  · rfl

/-- Where x is not VF, the result never overwrites the flag, and the flag is of the operands as they were. -/
theorem State.flaggedReread_readV_regF (hx : x ≠ 15#4) :
    (s.flaggedReread x y flag res).readV 15#4 = flag (s.readV x) (s.readV y) := by
  by_cases horder : s.config.vfAliasOrder = .asListed
  · rw [State.flaggedReread_asListed horder, State.readV_writeV_ne _ _ hx.symm, State.readV_writeV_same]
  · rw [State.flaggedReread_eq_flaggedSum horder, s.flaggedSum_eq _ _ hx, s.flagThenResult_readV_regF _ _ hx]

/-- Where y is VF, AS_LISTED computes the result from the flag just written. -/
theorem State.flaggedReread_readV_of_y_regF (hx : x ≠ 15#4) : (s.flaggedReread x 15#4 flag res).readV x =
    if s.config.vfAliasOrder = .asListed then res (s.readV x) (flag (s.readV x) (s.readV 15#4))
    else res (s.readV x) (s.readV 15#4) := by
  split_ifs with horder
  · rw [State.flaggedReread_asListed horder, State.readV_writeV_same, State.readV_writeV_ne _ _ hx, State.readV_writeV_same]
  · rw [State.flaggedReread_eq_flaggedSum horder, s.flaggedSum_eq _ _ hx, State.flagThenResult_readV]

/-- Where x is VF, it holds what the last write leaves: AS_LISTED computes the result from the flag just written. -/
theorem State.flaggedReread_regF_readV_regF : (s.flaggedReread 15#4 y flag res).readV 15#4 =
    match s.config.vfAliasOrder with
    | .asListed => res (flag (s.readV 15#4) (s.readV y)) ((s.writeV 15#4 (flag (s.readV 15#4) (s.readV y))).readV y)
    | .snapshotResultLast => res (s.readV 15#4) (s.readV y)
    | .snapshotFlagLast => flag (s.readV 15#4) (s.readV y) := by
  cases horder : s.config.vfAliasOrder with
  | asListed => rw [State.flaggedReread_asListed horder, State.readV_writeV_same, State.readV_writeV_same]
  | snapshotResultLast =>
    rw [State.flaggedReread_eq_flaggedSum (by simp [horder]), State.flaggedSum_of_ne_flagLast (by simp [horder]),
      State.flagThenResult_readV]
  | snapshotFlagLast =>
    rw [State.flaggedReread_eq_flaggedSum (by simp [horder]), State.flaggedSum_flagLast horder,
      State.resultThenFlag_readV_regF]

end

/-- Settles O25. -/
theorem addWithCarry : Obligations.AddWithCarry := by
  intro s x y
  have sum (a b : Byte) : (addResult a b).toNat = (a.toNat + b.toNat) % 256 := BitVec.toNat_add a b
  refine ⟨_, exec_addReg s x y, s.flaggedSum_onlyRegs .., fun hx => ?_, ?_, ?_⟩
  · rw [s.flaggedSum_eq _ _ hx, State.flagThenResult_readV, s.flagThenResult_readV_regF _ _ hx]
    exact ⟨sum _ _, rfl⟩
  · rintro rfl horder
    rw [State.flaggedSum_of_ne_flagLast horder, State.flagThenResult_readV, sum]
  · rintro rfl horder
    rw [State.flaggedSum_flagLast horder, State.resultThenFlag_readV_regF]
    rfl

/-! ## The subtractions (R127, R128) -/

/-- The table of R132 for an instruction that rereads its operands, where equal operands give flag 0 and result 0. -/
theorem exec_flaggedReread_table {i : Instr} {s : State} {x y : Nibble} {flag res : Byte → Byte → Byte} {f : Byte}
    (h : exec i s = .next (s.flaggedReread x y flag res)) (hf : f = flag (s.readV x) (s.readV y))
    (hflag : ∀ a, flag a a = 0#8) (hres : ∀ a, res a a = 0#8) :
    ∃ t, exec i s = .next t ∧ OnlyRegs [x, 15#4] s t ∧
    (x ≠ 15#4 → t.readV 15#4 = f) ∧
    (x ≠ 15#4 → y ≠ 15#4 → t.readV x = res (s.readV x) (s.readV y)) ∧
    (x ≠ 15#4 → y = 15#4 → t.readV x =
      if s.config.vfAliasOrder = .asListed then res (s.readV x) f else res (s.readV x) (s.readV y)) ∧
    (x = 15#4 → y ≠ 15#4 → t.readV 15#4 = match s.config.vfAliasOrder with
      | .asListed => res f (s.readV y)
      | .snapshotResultLast => res (s.readV x) (s.readV y)
      | .snapshotFlagLast => f) ∧
    (x = 15#4 → y = 15#4 → t.readV 15#4 = 0#8) := by
  subst hf
  refine ⟨_, h, s.flaggedReread_onlyRegs .., State.flaggedReread_readV_regF, fun hx hy => ?_, fun hx hy => ?_,
    fun hx hy => ?_, fun hx hy => ?_⟩
  · rw [s.flaggedReread_eq _ _ hx hy, State.flagThenResult_readV]
  · subst hy
    exact State.flaggedReread_readV_of_y_regF hx
  · subst hx
    rw [State.flaggedReread_regF_readV_regF, State.readV_writeV_ne _ _ hy]
  · subst hx hy
    rw [State.flaggedReread_regF_readV_regF, State.readV_writeV_same]
    cases s.config.vfAliasOrder with
    | asListed | snapshotResultLast => exact hres _
    | snapshotFlagLast => exact hflag _

theorem greaterFlag_self (a : Byte) : greaterFlag a a = 0#8 := by
  simp [greaterFlag, b2n]

theorem subResult_self (a : Byte) : subResult a a = 0#8 := BitVec.sub_self a

/-- Settles O26. -/
theorem subtractWithFlag : Obligations.SubtractWithFlag := fun s x y _ hf =>
  exec_flaggedReread_table (exec_subReg s x y) hf greaterFlag_self subResult_self

/-- Settles O27. -/
theorem reverseSubtractWithFlag : Obligations.ReverseSubtractWithFlag := fun s x y _ hf =>
  exec_flaggedReread_table (exec_subnReg s x y) hf greaterFlag_self subResult_self

/-! ## The shifts (R129, R130) -/

theorem lowBitFlag_toNat (a : Byte) : (lowBitFlag a).toNat = a.toNat % 2 := by
  rw [lowBitFlag, BitVec.toNat_and]
  exact Nat.and_one_is_mod _

theorem shrResult_toNat (a : Byte) : (shrResult a).toNat = a.toNat / 2 := by
  rw [shrResult, BitVec.toNat_ushiftRight, Nat.shiftRight_one]

theorem shlResult_toNat (a : Byte) : (shlResult a).toNat = 2 * a.toNat % 256 := by
  rw [shlResult, BitVec.toNat_shiftLeft, Nat.shiftLeft_eq, Nat.mul_comm]

/-- The table of R132 for a shift: the result is a function `g` of the number in V[x], and `gbit` of it is `g` of its bit 0,
which is what AS_LISTED shifts where V[x] is VF. -/
theorem exec_shift_table {i : Instr} {s : State} {x : Nibble} {res : Byte → Byte} {g gbit : Nat → Nat}
    (h : exec i s = .next (s.flaggedReread x x (fun vx _ => lowBitFlag vx) (fun vx _ => res vx)))
    (hres : ∀ a, (res a).toNat = g a.toNat) (hbit : ∀ v, g (v % 2) = gbit v) :
    ∃ t, exec i s = .next t ∧ OnlyRegs [x, 15#4] s t ∧
    (x ≠ 15#4 → (t.readV 15#4).toNat = (s.readV x).toNat % 2 ∧ (t.readV x).toNat = g (s.readV x).toNat) ∧
    (x = 15#4 → (t.readV 15#4).toNat = match s.config.vfAliasOrder with
      | .asListed => gbit (s.readV x).toNat
      | .snapshotResultLast => g (s.readV x).toNat
      | .snapshotFlagLast => (s.readV x).toNat % 2) := by
  refine ⟨_, h, s.flaggedReread_onlyRegs .., fun hx => ?_, fun hx => ?_⟩
  · rw [s.flaggedReread_eq _ _ hx hx, State.flagThenResult_readV, s.flagThenResult_readV_regF _ _ hx]
    exact ⟨lowBitFlag_toNat _, hres _⟩
  · subst hx
    rw [State.flaggedReread_regF_readV_regF]
    cases s.config.vfAliasOrder with
    | asListed => exact (hres _).trans (by rw [lowBitFlag_toNat, hbit])
    | snapshotResultLast => exact hres _
    | snapshotFlagLast => exact lowBitFlag_toNat _

/-- Settles O28: bit 0 shifted right is 0, and shifted left it is twice itself. -/
theorem shiftsByOne : Obligations.ShiftsByOne := by
  rintro s x y _ rfl
  have right (v : Nat) : v % 2 / 2 = 0 := by omega
  have left (v : Nat) : 2 * (v % 2) % 256 = 2 * (v % 2) := by omega
  exact ⟨exec_shift_table (g := (· / 2)) (exec_shr s x y) shrResult_toNat right,
    exec_shift_table (g := (2 * · % 256)) (exec_shl s x y) shlResult_toNat left⟩

end Sys2Proof.Machine
end

section
/-! PROOF. The index register and memory (43_index_memory.md): the three instructions that write `I`, the transfers
between registers and the bytes at `I`, and the check that precedes them. -/

namespace Sys2Proof

theorem fieldNN_eq_of_and_eq {w m p : Word} (hm : fieldNN m = 0xFF#8) (h : w &&& m = p) : fieldNN w = fieldNN p :=
  extractLsb'_eq_of_and_eq hm h

end Sys2Proof

namespace Sys2Proof.Machine

/-! ## The writers of `I` (R150-R152) -/

theorem State.indexPlus_toNat (s : State) (b : Byte) : (s.indexPlus b).toNat = (s.i.toNat + b.toNat) % 65536 :=
  (BitVec.toNat_add ..).trans (by rw [BitVec.toNat_setWidth_of_le (by decide)])

/-- Five times a byte fits in sixteen bits. -/
theorem glyphAddr_toNat (b : Byte) : (glyphAddr b).toNat = b.toNat * 5 := by
  simp only [glyphAddr, glyphBytes, BitVec.toNat_ofNat]; omega

/-- Settles O31. -/
theorem indexIsSetAndAdded : Obligations.IndexIsSetAndAdded := by
  refine ⟨fun w h => decode_majorA (nibble1_eq_of_and_eq rfl h), fun w h => ?_, fun s nnn => ?_, fun s x => ?_⟩
  · rw [decode_majorF (nibble1_eq_of_and_eq rfl h), fieldNN_eq_of_and_eq rfl h]
    rfl
  · exact ⟨_, exec_ldI s nnn, addressOf_toNat nnn, (exec_keeps (exec_ldI s nnn)).unchanged⟩
  · exact ⟨_, exec_addI s x, s.indexPlus_toNat _, (exec_keeps (exec_addI s x)).unchanged⟩

/-- Settles O32. -/
theorem fontAddressIsFiveTimesTheRegister : Obligations.FontAddressIsFiveTimesTheRegister := fun s x =>
  ⟨_, exec_ldF s x, glyphAddr_toNat _, (exec_keeps (exec_ldF s x)).unchanged⟩

/-! ## The check (R154) -/

/-- An instruction that accesses bytes at `I` is one effect behind the check of those bytes. -/
theorem exec_eq_checkedIndex {i : Instr} {k : Nat} (h : indexBytes? i = some k) (s : State) :
    ∃ t, exec i s = s.checkedIndex k i t := by
  cases i with
  | drw _ _ _ | ldB _ | ldMemVx _ | ldVxMem _ => cases h; exact ⟨_, rfl⟩
  | _ => cases h

theorem State.checkedIndex_of_le {s : State} {k : Nat} (h : s.i.toNat + k ≤ 4096) (i : Instr) (t : State) :
    s.checkedIndex k i t = .next t :=
  s.checkedIndex_eq_next.mpr ⟨.inr h, rfl⟩

/-- Settles O36. -/
theorem indexRelativeAccessIsChecked : Obligations.IndexRelativeAccessIsChecked := by
  intro i k s hk
  obtain ⟨t, hexec⟩ := exec_eq_checkedIndex hk s
  have completes (hroom : k = 0 ∨ s.i.toNat + k ≤ 4096) : ∃ t, exec i s = .next t :=
    ⟨t, hexec.trans (s.checkedIndex_eq_next.mpr ⟨hroom, rfl⟩)⟩
  refine ⟨fun hpos hout => ?_, fun _ hin => completes (.inr (by omega)), fun hzero => completes (.inl hzero)⟩
  have hfault := hexec.trans (s.checkedIndex_eq_fault.mpr ⟨hpos, by omega, rfl⟩)
  exact ⟨hfault, hfault ▸ (keeps_takeFault s _).unchanged⟩

/-! ## The stores and the load (R153, R155, R156) -/

@[simp] theorem decimalDigits_length (b : Byte) : (decimalDigits b).length = 3 := rfl

/-- Each of the three digits of a byte is a byte's value, so none is cut off. -/
theorem decimalDigits_toNat (b : Byte) : (decimalDigits b)[0].toNat = b.toNat / 100 ∧
    (decimalDigits b)[1].toNat = b.toNat / 10 % 10 ∧ (decimalDigits b)[2].toNat = b.toNat % 10 := by
  have value {n : Nat} (hn : n < 256) : (BitVec.ofNat 8 n).toNat = n := Nat.mod_eq_of_lt hn
  exact ⟨value (by omega), value (by omega), value (by omega)⟩

/-- Settles O33. -/
theorem decimalDigitsAreStored : Obligations.DecimalDigitsAreStored := by
  intro s x hwf hroom
  have hexec := (exec_ldB s x).trans (State.checkedIndex_of_le hroom _ _)
  have digit (k : Nat) (hk : k < 3) :
      (s.mem.writeBytes s.i.toNat (decimalDigits (s.readV x))).read (s.i.toNat + k) = (decimalDigits (s.readV x))[k] :=
    Memory.read_writeBytes_inside hwf hk
  obtain ⟨hundreds, tens, ones⟩ := decimalDigits_toNat (s.readV x)
  refine ⟨_, hexec, ?_, ?_, ?_, fun _ hout => s.mem.read_writeBytes_outside hout, (exec_keeps hexec).unchanged⟩
  · exact (congrArg _ (digit 0 (by decide))).trans hundreds
  · exact (congrArg _ (digit 1 (by decide))).trans tens
  · exact (congrArg _ (digit 2 (by decide))).trans ones

/-- Settles O34. -/
theorem registersAreStored : Obligations.RegistersAreStored := by
  intro s x hwf hroom
  have hexec := (exec_ldMemVx s x).trans (State.checkedIndex_of_le hroom _ _)
  refine ⟨_, hexec, fun r hr => ?_, fun _ => s.storeRegs_outside, (exec_keeps hexec).unchanged⟩
  exact (s.storeRegs_inside hwf (Nat.lt_succ_of_le hr)).trans (by rw [BitVec.ofNat_toNat, BitVec.setWidth_eq])

/-- Settles O35. -/
theorem registersAreLoaded : Obligations.RegistersAreLoaded := by
  intro s x hroom
  have hexec := (exec_ldVxMem s x).trans (State.checkedIndex_of_le hroom _ _)
  have loaded := s.loadRegs_readV (n := x.toNat + 1) x.isLt
  refine ⟨_, hexec, fun r hr => ?_, fun r hr => ?_, (exec_keeps hexec).unchanged⟩
  · rw [loaded, if_pos (Nat.lt_succ_of_le hr)]
  · rw [loaded, if_neg (Nat.not_lt.mpr hr)]

end Sys2Proof.Machine
end

section
/-! PROOF. The display (44_display.md): the word of 00E0, and what a completed draw leaves in the buffer, in VF and in
`display_flag`. -/

namespace Sys2Proof.Machine

/-! ## The clear (R170) -/

/-- A mask of ones admits the pattern alone. -/
theorem decodesTo_ones {p : Word} {i : Instr} (h : decode p = i) : DecodesTo 0xFFFF#16 p (fun _ => i) := by
  rintro w rfl
  exact (congrArg decode (BitVec.and_allOnes (x := w))).symm.trans h

/-- Settles O38. -/
theorem clearDisplayClearsEveryPixel : Obligations.ClearDisplayClearsEveryPixel :=
  ⟨decodesTo_ones rfl, fun s => ⟨_, exec_cls s, Display.pixel_blank, rfl, (exec_keeps (exec_cls s)).unchanged⟩⟩

/-! ## The draw (R171, R172) -/

theorem b2n_eq_one_iff {b : Bool} : b2n b = 1#8 ↔ b = true := by
  cases b <;> decide

theorem b2n_eq_zero_or_one (b : Bool) : b2n b = 0#8 ∨ b2n b = 1#8 := by
  cases b
  · exact .inl rfl
  · exact .inr rfl

@[simp] theorem State.finishDraw_disp (s : State) (d : Drawing) : (s.finishDraw d).disp = d.disp := rfl
@[simp] theorem State.finishDraw_displayFlag (s : State) (d : Drawing) : (s.finishDraw d).displayFlag = d.collision := rfl
@[simp] theorem State.finishDraw_readV_regF (s : State) (d : Drawing) : (s.finishDraw d).readV 15#4 = b2n d.collision :=
  (s.setDisp d.disp).readV_writeV_same 15#4 _

/-- Which pixels a sprite covers depends on memory and `I` only. -/
theorem spriteCovers_congr {s u : State} (hmem : u.mem = s.mem) (hi : u.i = s.i) : spriteCovers u = spriteCovers s := by
  funext cx cy n px py
  simp only [spriteCovers, hmem, hi]

theorem spriteCollides_congr {s u : State} (hmem : u.mem = s.mem) (hi : u.i = s.i) (hdisp : u.disp = s.disp) :
    spriteCollides u = spriteCollides s := by
  funext cx cy n
  simp only [spriteCollides, spriteCovers_congr hmem hi, hdisp]

/-- A draw whose sprite lies in memory completes. -/
theorem exec_drw_completes {s : State} {n : Nibble} (hroom : n.toNat = 0 ∨ s.i.toNat + n.toNat ≤ 4096) (x y : Nibble) :
    ∃ t, exec (.drw x y n) s = .next t :=
  ⟨_, (exec_drw s x y n).trans (s.checkedIndex_eq_next.mpr ⟨hroom, rfl⟩)⟩

section
variable {s t : State} {x y n : Nibble} (h : exec (.drw x y n) s = .next t)
include h

theorem exec_drw_room : n.toNat = 0 ∨ s.i.toNat + n.toNat ≤ 4096 :=
  (s.checkedIndex_eq_next.mp (exec_drw s x y n ▸ h)).1

theorem exec_drw_eq_finishDraw :
    t = s.finishDraw (s.drawSprite ((s.readV x).toNat % 64) ((s.readV y).toNat % 32) n.toNat) :=
  (s.checkedIndex_eq_next.mp (exec_drw s x y n ▸ h)).2.symm

/-- The draw inverts exactly the pixels the sprite covers. -/
theorem exec_drw_pixel (px : Fin 64) (py : Fin 32) : t.disp.pixel px py = (s.disp.pixel px py ^^
    spriteCovers s ((s.readV x).toNat % 64) ((s.readV y).toNat % 32) n.toNat px py) := by
  rw [exec_drw_eq_finishDraw h, State.finishDraw_disp]
  exact s.drawSprite_pixel (Nat.mod_lt _ (by decide)) (Nat.mod_lt _ (by decide)) (Nat.le_of_lt_succ n.isLt) px py

/-- `display_flag` is the collision. -/
theorem exec_drw_displayFlag :
    t.displayFlag = true ↔ spriteCollides s ((s.readV x).toNat % 64) ((s.readV y).toNat % 32) n.toNat := by
  rw [exec_drw_eq_finishDraw h, State.finishDraw_displayFlag]
  exact s.drawSprite_collision (Nat.mod_lt _ (by decide)) (Nat.mod_lt _ (by decide)) (Nat.le_of_lt_succ n.isLt)

/-- VF is `display_flag` as a byte. -/
theorem exec_drw_readV_regF : t.readV 15#4 = b2n t.displayFlag := by
  rw [exec_drw_eq_finishDraw h, State.finishDraw_readV_regF, State.finishDraw_displayFlag]

theorem exec_drw_readV_regF_eq_one :
    t.readV 15#4 = 1#8 ↔ spriteCollides s ((s.readV x).toNat % 64) ((s.readV y).toNat % 32) n.toNat := by
  rw [exec_drw_readV_regF h, b2n_eq_one_iff, exec_drw_displayFlag h]

/-- The pixels where a draw collides are the set ones it clears. -/
theorem exec_drw_collides_iff : spriteCollides s ((s.readV x).toNat % 64) ((s.readV y).toNat % 32) n.toNat ↔
    ∃ px py, s.disp.pixel px py = true ∧ t.disp.pixel px py = false := by
  refine exists₂_congr fun px py => ?_
  rw [exec_drw_pixel h, and_comm]
  exact and_congr_right fun hset => by rw [hset, Bool.true_xor, Bool.not_eq_false']

end

/-- Settles O39. -/
theorem drawTogglesExactlyTheSprite : Obligations.DrawTogglesExactlyTheSprite := by
  intro s x y n hroom
  obtain ⟨t, h⟩ := exec_drw_completes (hroom.symm.imp_left (congrArg BitVec.toNat)) x y
  exact ⟨t, h, exec_drw_pixel h, exec_drw_readV_regF_eq_one h, exec_drw_readV_regF h ▸ b2n_eq_zero_or_one _,
    exec_drw_displayFlag h, ((exec_keeps h).mono (by simp)).unchanged,
    fun r hr => exec_readV h (List.mem_singleton.not.mp hr)⟩

/-- Settles O40: the two draws cover the same pixels, and what covers them twice cancels out. -/
theorem drawingTwiceRestoresTheDisplay : Obligations.DrawingTwiceRestoresTheDisplay := by
  intro s t u x y n hfirst hdisp hmem hi hx hy
  obtain ⟨r, hsecond⟩ := exec_drw_completes (hi ▸ exec_drw_room hfirst) x y
  refine ⟨r, hsecond, fun px py => ?_, ?_⟩
  · rw [exec_drw_pixel hsecond, hx, hy, spriteCovers_congr hmem hi, hdisp, exec_drw_pixel hfirst, Bool.xor_assoc,
      Bool.xor_self, Bool.xor_false]
  · have tmem : t.mem = s.mem := exec_keeps hfirst .mem (by simp)
    have ti : t.i = s.i := exec_keeps hfirst .index (by simp)
    rw [exec_drw_readV_regF_eq_one hsecond, hx, hy, spriteCollides_congr (hmem.trans tmem.symm) (hi.trans ti.symm) hdisp]

/-- Settles O41. -/
theorem displayFlagIsTheCollision : Obligations.DisplayFlagIsTheCollision := by
  intro s t x y n h
  have cleared := (exec_drw_displayFlag h).trans (exec_drw_collides_iff h)
  refine ⟨by rw [exec_drw_readV_regF h, b2n_eq_one_iff], cleared, fun hon => Bool.eq_false_iff.mpr fun hflag => ?_⟩
  obtain ⟨px, py, before, after⟩ := cleared.mp hflag
  exact Bool.false_ne_true (after.symm.trans (hon px py before))

end Sys2Proof.Machine
end

section
/-! PROOF. Keys and timers (45_keys_timers.md): the skips on a key, the wait for one, and the moves between a timer and a
register. -/

namespace Sys2Proof.Machine

/-! ## The skips on a key (R180, R181) -/

section
variable {s : State} {x : Nibble}

theorem State.keyHeld_of_lt {k : Nat} (h : k < 16) : s.keyHeld k = s.keys[k] := dif_pos h

/-- A key index below 16 names one of the keys, and the skip is on that one. -/
theorem State.keySkip_of_readV_eq {k : Nat} (h : k < 16) (hx : (s.readV x).toNat = k) (i : Instr) (pressed : Bool) :
    s.keySkip x i pressed = .next (s.skipIf (s.keys[k] == pressed)) := by
  subst hx
  rw [s.keySkip_lt h, State.keyHeld_of_lt h]

end

/-- Settles O22: EXA1 skips on the negation of the test of EX9E, and both fault on the one check of the index. -/
theorem skipsOnAKey : Obligations.SkipsOnAKey := by
  refine ⟨fun s x k h hx => ?_, fun s x k h hx => ?_, fun s x hx => ⟨?_, ?_⟩⟩
  · exact exec_skips_iff ((exec_skp s x).trans (State.keySkip_of_readV_eq h hx _ true)) beq_iff_eq
  · have released : (s.keys[k] == false) = true ↔ ¬s.keys[k] = true := by simp
    simpa only [ite_not] using exec_skips_iff ((exec_sknp s x).trans (State.keySkip_of_readV_eq h hx _ false)) released
  · exact (exec_skp s x).trans (s.keySkip_ge hx)
  · exact (exec_sknp s x).trans (s.keySkip_ge hx)

/-! ## The wait for a key (R183) -/

section
variable {s : State}

theorem exec_ldVxKey_of_lowest {k : Nat} (h : k < 16) (held : s.keys[k] = true)
    (lowest : ∀ (j : Nat) (hj : j < k), s.keys[j] = false) (x : Nibble) :
    exec (.ldVxKey x) s = .next (s.writeV x (BitVec.ofNat 8 k)) := by
  refine exec_ldVxKey_some s x (s.firstKey?_eq_some.mpr ⟨h, ?_, fun j hj => ?_⟩)
  · rw [State.keyHeld_of_lt h, held]
  · rw [State.keyHeld_of_lt (hj.trans h), lowest j hj]

theorem exec_ldVxKey_of_noKey (noKey : ∀ (j : Nat) (hj : j < 16), s.keys[j] = false) (x : Nibble) :
    exec (.ldVxKey x) s = .next (s.setPc (s.pc - 2#16)) :=
  exec_ldVxKey_none s x (s.firstKey?_eq_none.mpr fun j hj => (State.keyHeld_of_lt hj).trans (noKey j hj))

end

/-- Settles O42. -/
theorem keyWaitTakesTheLowestKey : Obligations.KeyWaitTakesTheLowestKey := by
  refine ⟨fun s x k h held lowest => ?_, fun s x noKey => ?_⟩
  · obtain ⟨t, hexec, hx, hframe⟩ := exec_writes_reg (exec_ldVxKey_of_lowest h held lowest x)
    exact ⟨t, hexec, hx ▸ Nat.mod_eq_of_lt (h.trans (by decide)), hframe⟩
  · exact ⟨_, exec_ldVxKey_of_noKey noKey x, rfl, ((Keeps.refl _ s).setPc _).unchanged⟩

/-- Settles O43: the rewind takes back what the fetch added to `pc`. -/
theorem keyWaitIsAFixedPoint : Obligations.KeyWaitIsAFixedPoint := by
  intro s x hs hp hpc hword noKey
  calc perform .tick s
      = exec (decode (encode (.ldVxKey x))) (s.setPc (s.pc + 2#16)) := by rw [perform_tick_eq_exec hs hp hpc, hword]
    _ = exec (.ldVxKey x) (s.setPc (s.pc + 2#16)) := by rw [decodeOfEncodeIsIdentity _ rfl]
    _ = .next (s.setPc (s.pc + 2#16 - 2#16)) := exec_ldVxKey_of_noKey (s := s.setPc (s.pc + 2#16)) noKey x
    _ = .next s := by rw [BitVec.add_sub_cancel, State.setPc_self]

/-! ## The moves between a timer and a register (R182, R184, R185) -/

/-- Settles O44. -/
theorem timersAreReadAndWritten : Obligations.TimersAreReadAndWritten := fun s x =>
  ⟨exec_writes_reg (exec_ldVxDt s x),
    ⟨_, exec_ldDtVx s x, rfl, (exec_keeps (exec_ldDtVx s x)).unchanged⟩,
    ⟨_, exec_ldStVx s x, rfl, (exec_keeps (exec_ldStVx s x)).unchanged⟩⟩

end Sys2Proof.Machine
end

section
/-! PROOF. Faults (60_exceptions.md R200-R212): the one condition under which an instruction faults, the record of a
faulting tick, and the seventeenth nested call. -/

namespace Sys2Proof.Machine

/-! ## The one fault condition of an instruction (R200, R208) -/

/-- An outcome is the fault listed, and a completion where none is. -/
def EndsAsListed : Option Fault → Result → Prop
  | some f, r => r = .fault f
  | none, r => ∃ t, r = .next t

theorem EndsAsListed.ite {P : Prop} [Decidable P] {f : Fault} {r : Result} (hf : P → r = .fault f)
    (hn : ¬P → ∃ t, r = .next t) : EndsAsListed (if P then some f else none) r := by
  split_ifs with h
  · exact hf h
  · exact hn h

theorem EndsAsListed.eq_fault_iff {o : Option Fault} {r : Result} (h : EndsAsListed o r) (f : Fault) :
    r = .fault f ↔ o = some f := by
  cases o with
  | some g => obtain rfl : r = .fault g := h; simp
  | none => obtain ⟨t, rfl⟩ := h; simp

theorem EndsAsListed.ne_refused {o : Option Fault} {r : Result} (h : EndsAsListed o r) (x : Refusal) :
    r ≠ .refused x := by
  cases o with
  | some g => obtain rfl : r = .fault g := h; simp
  | none => obtain ⟨t, rfl⟩ := h; simp

section
variable {i : Instr} {s : State}

theorem faultOf?_of_indexBytes? {k : Nat} (h : indexBytes? i = some k) : faultOf? i s =
    if 0 < k ∧ 4096 ≤ s.i.toNat + k - 1 then
      some (.memoryOutOfRange (s.pc - 2#16) (encode i) (lowestOutOfRange s.i.toNat))
    else none := by
  cases i with
  | drw _ _ _ | ldB _ | ldMemVx _ | ldVxMem _ => cases h; rfl
  | _ => cases h

/-- The check of an index-relative instruction is its one fault condition. -/
theorem exec_endsAsListed_of_indexBytes? {k : Nat} (h : indexBytes? i = some k) :
    EndsAsListed (faultOf? i s) (exec i s) := by
  obtain ⟨t, hexec⟩ := exec_eq_checkedIndex h s
  rw [faultOf?_of_indexBytes? h, hexec]
  refine .ite (fun out => ?_) (fun room => ?_)
  · exact s.checkedIndex_eq_fault.mpr ⟨out.1, by omega, rfl⟩
  · exact ⟨t, s.checkedIndex_eq_next.mpr ⟨by omega, rfl⟩⟩

/-- A key index of 16 or more is the one fault condition of a skip on a key. -/
theorem keySkip_endsAsListed (x : Nibble) (i : Instr) (pressed : Bool) :
    EndsAsListed (if 16 ≤ (s.readV x).toNat then some (.keyIndexOutOfRange (s.pc - 2#16) (encode i)) else none)
      (s.keySkip x i pressed) :=
  .ite s.keySkip_ge fun h => ⟨_, s.keySkip_lt (Nat.lt_of_not_le h)⟩

end

/-- Every instruction ends as its row of R200 lists. -/
theorem exec_endsAsListed (i : Instr) (s : State) : EndsAsListed (faultOf? i s) (exec i s) := by
  cases i with
  | call nnn =>
    exact .ite (exec_call_fault s nnn) fun h => ⟨_, exec_call_next s nnn (by omega)⟩
  | ret => exact .ite (exec_ret_fault s) fun h => ⟨_, exec_ret_next s fun hsp => h (Fin.ext hsp)⟩
  | skp x => exact keySkip_endsAsListed x _ true
  | sknp x => exact keySkip_endsAsListed x _ false
  | drw _ _ _ | ldB _ | ldMemVx _ | ldVxMem _ => exact exec_endsAsListed_of_indexBytes? rfl
  | ldVxKey x =>
    cases h : s.firstKey? with
    | some k => exact ⟨_, exec_ldVxKey_some s x h⟩
    | none => exact ⟨_, exec_ldVxKey_none s x h⟩
  | _ => exact ⟨_, rfl⟩

/-- Settles O11. -/
theorem instructionsFaultExactlyAsListed : Obligations.InstructionsFaultExactlyAsListed := by
  intro i s
  have listed := exec_endsAsListed i s
  exact ⟨listed.eq_fault_iff, fun hnone => by rwa [hnone] at listed, listed.ne_refused⟩

/-! ## The record of a faulting tick (R207) -/

/-- A tick that faults did so in its fetch, or in the instruction it fetched. -/
theorem perform_tick_eq_fault {s : State} {f : Fault} (h : perform .tick s = .fault f) :
    f = .fetchOutOfRange s.pc (lowestOutOfRange s.pc.toNat) ∨
    exec (decode (s.mem.readWord s.pc.toNat)) (s.setPc (s.pc + 2#16)) = .fault f := by
  obtain ⟨hs, hp, -⟩ := s.ifAdmitted_eq_fault.mp h
  by_cases hpc : s.pc.toNat + 1 < 4096
  · exact .inr (perform_tick_eq_exec hs hp hpc ▸ h)
  · rw [perform_tick_eq_fetchFault hs hp (by omega)] at h
    cases h
    exact .inl rfl

/-- The record of an instruction's fault holds the instruction's address and word, and an address exactly where the
fault is an index-relative access. -/
theorem record_of_faultOf? {i : Instr} {s : State} {f : Fault} (h : faultOf? i s = some f) :
    f.pc? = some (s.pc - 2#16) ∧ f.op? = some (encode i) ∧
    ((f.code = 4 ∧ f.addr? = some (lowestOutOfRange s.i.toNat)) ∨
      ((f.code = 1 ∨ f.code = 2 ∨ f.code = 6) ∧ f.addr? = none)) := by
  cases i with
  | call _ | ret | skp _ | sknp _ =>
    obtain ⟨-, ⟨⟩⟩ := Option.ite_none_right_eq_some.mp h
    exact ⟨rfl, rfl, .inr ⟨by simp [Fault.code], rfl⟩⟩
  | drw _ _ _ | ldB _ | ldMemVx _ | ldVxMem _ =>
    obtain ⟨-, ⟨⟩⟩ := Option.ite_none_right_eq_some.mp h
    exact ⟨rfl, rfl, .inl ⟨rfl, rfl⟩⟩
  | _ => cases h

/-- Settles O10: the instruction runs with `pc` 2 past the address it was fetched from, and encodes to the word
fetched. -/
theorem faultRecordNamesTheInstruction : Obligations.FaultRecordNamesTheInstruction := by
  intro s f h
  obtain rfl | hexec := perform_tick_eq_fault h
  · exact ⟨rfl, .inl ⟨rfl, rfl, rfl⟩⟩
  · obtain ⟨hpc, hop, hrest⟩ := record_of_faultOf? (((exec_endsAsListed _ _).eq_fault_iff f).mp hexec)
    rw [State.setPc_pc, BitVec.add_sub_cancel] at hpc
    rw [encode_decode] at hop
    obtain ⟨hcode, haddr⟩ | ⟨hcode, haddr⟩ := hrest
    · exact ⟨hpc, .inr (.inl ⟨hcode, hop, haddr⟩)⟩
    · exact ⟨hpc, .inr (.inr ⟨hcode, hop, haddr⟩)⟩

/-! ## Nested calls (R201) -/

theorem execSeq_cons_of_next {i : Instr} {is : List Instr} {s t : State} (h : exec i s = .next t) :
    execSeq (i :: is) s = execSeq is t := by
  simp only [execSeq, h]

theorem execSeq_append_of_next {is js : List Instr} {s t : State} (h : execSeq is s = .next t) :
    execSeq (is ++ js) s = execSeq js t := by
  induction is generalizing s with
  | nil => cases h; rfl
  | cons i is ih =>
    cases hi : exec i s with
    | next u =>
      rw [execSeq_cons_of_next hi] at h
      rw [List.cons_append, execSeq_cons_of_next hi, ih h]
    | fault _ | refused _ => simp [execSeq, hi] at h

/-- Calls nest as long as the stack has room, one entry each. -/
theorem execSeq_calls (targets : List Addr12) {s : State} (h : s.sp.val + targets.length ≤ 16) :
    ∃ t, execSeq (targets.map .call) s = .next t ∧ t.sp.val = s.sp.val + targets.length := by
  induction targets generalizing s with
  | nil => exact ⟨s, rfl, rfl⟩
  | cons nnn targets ih =>
    rw [List.length_cons] at h
    obtain ⟨t, hcall, -, hsp, -⟩ := exec_call_pushes (s := s) nnn (by omega) rfl
    obtain ⟨u, hseq, husp⟩ := ih (s := t) (by omega)
    exact ⟨u, by rw [List.map_cons, execSeq_cons_of_next hcall, hseq], by rw [husp, hsp, List.length_cons]; omega⟩

/-- Settles O17: the calls fill the stack, and a call on a full stack faults. -/
theorem sixteenNestedCallsThenOverflow : Obligations.SixteenNestedCallsThenOverflow := by
  intro s targets hempty
  have nest (hlen : targets.length ≤ 16) :
      ∃ t, execSeq (targets.map .call) s = .next t ∧ t.sp.val = targets.length := by
    simpa [hempty] using execSeq_calls targets (s := s) (by simpa [hempty] using hlen)
  refine ⟨nest, fun hlen nnn => ?_⟩
  obtain ⟨t, hseq, hsp⟩ := nest hlen.le
  have hfault := exec_call_fault t nnn (Fin.ext (hsp.trans hlen))
  refine ⟨t, _, hseq, hfault, rfl, ?_, hfault ▸ (keeps_takeFault t _).unchanged⟩
  rw [List.map_append, execSeq_append_of_next hseq, List.map_singleton, execSeq, hfault]

/-! ## The oversized ROM (R205, 70_reset_and_hazards.md R242) -/

/-- Settles O50. -/
theorem oversizedRomIsAFault : Obligations.OversizedRomIsAFault := by
  intro s rom hs hp hlen
  have hfault : perform (.loadRom rom) s = .fault .romTooLarge := (s.ifAdmitted_eq hs hp _).trans (if_pos hlen)
  exact ⟨_, hfault, rfl, rfl, rfl, rfl, hfault ▸ (keeps_takeFault s _).unchanged⟩

end Sys2Proof.Machine
end

section
/-! PROOF. The host interface (60_exceptions.md R216-R225): the timer step, key input, and the reads and resets of the
display state. -/

namespace Sys2Proof.Machine

/-! ## The timer step (R216, R217) -/

/-- Settles O45. -/
theorem timerStepDecrementsOnce : Obligations.TimerStepDecrementsOnce := by
  refine ⟨fun s hs hp => ⟨s.stepTimers, s.ifAdmitted_eq hs hp _, ?_, ?_, ?_, (keeps_stepTimers s).unchanged⟩,
    fun s f h => ?_⟩
  · rw [s.stepTimers_dt, countDown_toNat]
  · rw [s.stepTimers_st, countDown_toNat]
  · exact s.stepTimers_events.trans (if_congr (BitVec.toNat_inj (y := 1#8)) rfl rfl)
  · obtain ⟨-, -, ⟨⟩⟩ := s.ifAdmitted_eq_fault.mp h

/-! ## Key input (R224) -/

/-- Settles O47. -/
theorem keySetWritesOneKey : Obligations.KeySetWritesOneKey := by
  refine ⟨fun s k pressed h hs hp => ?_, fun s k pressed hs hp h => ?_⟩
  · have hset : perform (.keySet k pressed) s = .next (s.setKeys (s.keys.set k pressed h)) :=
      (s.ifAdmitted_eq hs hp _).trans (dif_pos h)
    exact ⟨_, hset, Vector.getElem_set_self h, fun j hj hne => Vector.getElem_set_ne h hj hne.symm,
      (perform_keeps hset).unchanged⟩
  · exact (s.ifAdmitted_eq hs hp _).trans (dif_neg (Nat.not_lt.mpr h))

/-! ## The display and the flags (R223, R225) -/

/-- The linear index of `display()` is the one of the rows laid one after another. -/
theorem State.displayView_eq_flatten (s : State) : s.displayView = s.disp.flatten.toList := by
  simp only [State.displayView, List.flatMap_def, Vector.flatten, Vector.toList_mk, Array.toList_flatten,
    Array.toList_map, List.map_map]
  rfl

theorem State.displayView_getElem? (s : State) (px : Fin 64) (py : Fin 32) :
    s.displayView[px.val + 64 * py.val]? = some (s.disp.pixel px py) := by
  have row : (px.val + 64 * py.val) / 64 = py.val := by omega
  have column : (px.val + 64 * py.val) % 64 = px.val := by omega
  rw [s.displayView_eq_flatten, Vector.getElem?_toList, Vector.getElem?_flatten, dif_pos (by omega)]
  simp only [row, column, Display.pixel]

/-- Settles O48. -/
theorem hostReadsAndClearsTheDisplayState : Obligations.HostReadsAndClearsTheDisplayState := by
  refine ⟨fun s hs hp => ⟨?_, ?_⟩, fun s => rfl, State.displayView_getElem?⟩
  · have hreset : perform .resetClearFlag s = .next (s.setClearFlag false) := s.ifAdmitted_eq hs hp _
    exact ⟨_, hreset, rfl, (perform_keeps hreset).unchanged⟩
  · have hreset : perform .resetDisplayFlag s = .next (s.setDisplayFlag false) := s.ifAdmitted_eq hs hp _
    exact ⟨_, hreset, rfl, (perform_keeps hreset).unchanged⟩

end Sys2Proof.Machine
end

section
/-! PROOF. Reset, the boot order and a halted core (70_reset_and_hazards.md): the operations a phase does not admit, the
launch state of a ROM, and the self-jump that a tick leaves in place. -/

namespace Sys2Proof.Machine

/-! ## The boot order (R243) -/

section
variable {s : State} {op : HostOp}

/-- An operation that needs a phase is admitted by `ifAdmitted`, which refuses it in every other phase. -/
theorem perform_of_phase_ne (hs : s.status = .running) {p : Phase} (hop : op.phase? = some p) (hp : s.phase ≠ p) :
    perform op s = .refused .bootOrder := by
  cases op with
  | display | flags | status => cases hop
  | _ => cases hop; exact s.ifAdmitted_phase hs hp _

/-- The operations that need no phase are the reads. -/
theorem isRead_of_phase?_eq_none (h : op.phase? = none) : op.isRead = true := by
  cases op with
  | display | flags | status => rfl
  | _ => cases h

end

/-- Settles O13. -/
theorem bootOrderIsEnforced : Obligations.BootOrderIsEnforced := fun _ _ hs =>
  ⟨fun _ => perform_of_phase_ne hs, fun hop => perform_of_isRead (isRead_of_phase?_eq_none hop)⟩

/-! ## The launch state (R241, R242, R244) -/

section
variable {s : State}

theorem perform_loadFonts (hs : s.status = .running) (hp : s.phase = .created) : perform .loadFonts s =
    .next ((s.setMem (s.mem.writeBytes fontBase s.config.fontTable.toList)).setPhase .fontsLoaded) :=
  s.ifAdmitted_eq hs hp _

theorem perform_loadRom {rom : List Byte} (hs : s.status = .running) (hp : s.phase = .fontsLoaded)
    (hlen : rom.length ≤ 3584) :
    perform (.loadRom rom) s = .next ((s.setMem (s.mem.writeBytes romBase rom)).setPhase .loaded) :=
  (s.ifAdmitted_eq hs hp _).trans (if_neg (Nat.not_lt.mpr hlen))

end

/-- Memory as `load_fonts` leaves it: the font in a memory with no other byte. -/
def fontMem (c : Config) : Memory := Memory.writeBytes [] fontBase c.fontTable.toList

theorem fontMem_wf (c : Config) : Memory.wf (fontMem c) := Memory.wf_writeBytes Memory.wf_nil _ _

theorem read_fontMem_of_lt (c : Config) {a : Nat} (h : a < 80) : (fontMem c).read a = c.fontTable[a] := by
  have hlen : a < c.fontTable.toList.length := by rwa [Vector.length_toList]
  rw [← Vector.getElem_toList hlen, ← Memory.read_writeBytes_inside Memory.wf_nil (a := fontBase) hlen, Nat.zero_add]
  rfl

theorem read_fontMem_of_le (c : Config) {a : Nat} (h : 80 ≤ a) : (fontMem c).read a = 0#8 :=
  Memory.read_writeBytes_outside [] (.inr (by rwa [Vector.length_toList, Nat.zero_add]))

/-- The two loaders run in boot order, and write memory and the phase. -/
theorem runOps_boot (c : Config) {rom : List Byte} (hlen : rom.length ≤ 3584) :
    runOps [.loadFonts, .loadRom rom] (State.created c) =
      ((State.created c).setMem ((fontMem c).writeBytes romBase rom)).setPhase .loaded := by
  rw [runOps_cons, perform_loadFonts rfl rfl, State.leftBy_next, runOps_cons, perform_loadRom rfl rfl hlen]
  rfl

/-- Settles O49: the font's window and the ROM's do not overlap, so each byte is read through the writes beside it. -/
theorem launchStateHoldsFontAndRom : Obligations.LaunchStateHoldsFontAndRom := by
  intro c rom hlen t
  have ht : t = ((State.created c).setMem ((fontMem c).writeBytes romBase rom)).setPhase .loaded := runOps_boot c hlen
  have outside {a : Nat} (h : a < 512 ∨ 512 + rom.length ≤ a) : t.mem.read a = (fontMem c).read a :=
    ht ▸ (fontMem c).read_writeBytes_outside h
  refine ⟨fun a h => ?_, fun a hlo hhi => ?_, fun k h => ?_, fun a h => ?_, ht ▸ rfl, ht ▸ rfl, ?_⟩
  · rw [outside (.inl (by omega)), read_fontMem_of_lt c h]
  · rw [outside (.inl hhi), read_fontMem_of_le c hlo]
  · exact ht ▸ Memory.read_writeBytes_inside (fontMem_wf c) h
  · rw [outside (.inr h), read_fontMem_of_le c (by omega)]
  · exact ht ▸ (((Keeps.refl _ _).setMem _).setPhase _).unchanged

/-! ## A halted core (R263) -/

/-- The word of a jump is its target in the low twelve bits, under the major opcode. -/
theorem encode_jp (nnn : Addr12) : encode (.jp nnn) = 0x1000#16 ||| addressOf nnn := rfl

theorem addressOf_setWidth {a : Word} (h : a.toNat ≤ 0xFFF) : addressOf (a.setWidth 12) = a :=
  BitVec.eq_of_toNat_eq ((addressOf_toNat _).trans (Nat.mod_eq_of_lt (Nat.lt_succ_of_le h)))

/-- Settles O59: the jump goes back to the address its word was fetched from. -/
theorem haltedCoreIsAFixedPoint : Obligations.HaltedCoreIsAFixedPoint := by
  rintro s ⟨hs, hp, hpc, hword⟩
  have target : addressOf (s.pc.setWidth 12) = s.pc := addressOf_setWidth (by omega)
  have word : s.mem.readWord s.pc.toNat = encode (.jp (s.pc.setWidth 12)) := by rw [hword, encode_jp, target]
  calc perform .tick s
      = exec (decode (encode (.jp (s.pc.setWidth 12)))) (s.setPc (s.pc + 2#16)) := by
        rw [perform_tick_eq_exec hs hp (by omega), word]
    _ = exec (.jp (s.pc.setWidth 12)) (s.setPc (s.pc + 2#16)) := by rw [decodeOfEncodeIsIdentity _ rfl]
    _ = .next s := by rw [exec_jp, target, State.setPc_setPc, State.setPc_self]

end Sys2Proof.Machine
end
